-- ==== Sys2Proof/Word.lean ====
section
/-! DEFINITION. The word types of the model.

Registers are written in the 64-bit numbering `b64` of the spec (00_scope.md R7): bit `n` of `b64`
is the bit of weight `2 ^ (63 - n)`. A 32-bit implementation keeps only `b64` bits 32 to 63, so its
registers are the 64-bit words whose high half is zero (notes/assumptions/10.md). -/

namespace Sys2Proof

/-- A byte of memory (20_memory.md R60). -/
abbrev Byte := BitVec 8

/-- A register, an effective address or a physical address, in the `b64` numbering. -/
abbrev Word := BitVec 64

/-- An instruction word, bits 0 to 31 from the most significant (30_encoding.md R90). -/
abbrev InstWord := BitVec 32

/-- A general register number, a five-bit field of the instruction (10_state.md R45). -/
abbrev Reg := BitVec 5

/-- A floating-point register number (10_state.md R45). -/
abbrev FReg := BitVec 5

/-- The five-bit TO field of a trap instruction, TO[0] most significant (30_encoding.md R95). -/
abbrev TrapTo := BitVec 5

/-- A special-purpose register number n, its two halves already in order (30_encoding.md R94). -/
abbrev SprNum := BitVec 10

end Sys2Proof
end

