-- ==== Sys2Proof/Syntax.lean ====
section
/-! DEFINITION. The instructions: one constructor per row of spec/opcode_table.json, in its order.

Operands are the fields of the encoding (30_encoding.md R92): register numbers, the TO field, the
sixteen-bit immediate and displacement, the fourteen-bit `ds` field before scaling, the `NB` field, and
the SPR number with its halves in order (R94). -/

namespace Sys2Proof

/-- The 91 instructions of the spec. -/
inductive Instr where
  /-- `tdi`, Trap Double Word Immediate (R122). -/
  | tdi (cond : TrapTo) (ra : Reg) (simm : BitVec 16)
  /-- `twi`, Trap Word Immediate (R121). -/
  | twi (cond : TrapTo) (ra : Reg) (simm : BitVec 16)
  /-- `sc`, System Call (R110). -/
  | sc
  /-- `rfid`, Return from Interrupt Double Word (R113). -/
  | rfid
  /-- `rfi`, Return from Interrupt (R111). -/
  | rfi
  /-- `isync`, Instruction Synchronize (R125). -/
  | isync
  /-- `tw`, Trap Word (R119). -/
  | tw (cond : TrapTo) (ra : Reg) (rb : Reg)
  /-- `td`, Trap Double Word (R120). -/
  | td (cond : TrapTo) (ra : Reg) (rb : Reg)
  /-- `mfmsr`, Move from Machine State Register (R116). -/
  | mfmsr (rd : Reg)
  /-- `mtmsr`, Move to Machine State Register (R114). -/
  | mtmsr (rs : Reg)
  /-- `mtmsrd`, Move to Machine State Register Double Word (R115). -/
  | mtmsrd (rs : Reg)
  /-- `mfspr`, Move from Special-Purpose Register (R118). -/
  | mfspr (rd : Reg) (spr : SprNum)
  /-- `mtspr`, Move to Special-Purpose Register (R117). -/
  | mtspr (spr : SprNum) (rs : Reg)
  /-- `sync`, Synchronize (R124). -/
  | sync
  /-- `lwz`, Load Word and Zero (R141). -/
  | lwz (rd : Reg) (ra : Reg) (d : BitVec 16)
  /-- `lwzu`, Load Word and Zero with Update (R142). -/
  | lwzu (rd : Reg) (ra : Reg) (d : BitVec 16)
  /-- `stw`, Store Word (R143). -/
  | stw (rs : Reg) (ra : Reg) (d : BitVec 16)
  /-- `stwu`, Store Word with Update (R144). -/
  | stwu (rs : Reg) (ra : Reg) (d : BitVec 16)
  /-- `lhz`, Load Half Word and Zero (R145). -/
  | lhz (rd : Reg) (ra : Reg) (d : BitVec 16)
  /-- `lhzu`, Load Half Word and Zero with Update (R146). -/
  | lhzu (rd : Reg) (ra : Reg) (d : BitVec 16)
  /-- `lha`, Load Half Word Algebraic (R147). -/
  | lha (rd : Reg) (ra : Reg) (d : BitVec 16)
  /-- `lhau`, Load Half Word Algebraic with Update (R148). -/
  | lhau (rd : Reg) (ra : Reg) (d : BitVec 16)
  /-- `sth`, Store Half Word (R149). -/
  | sth (rs : Reg) (ra : Reg) (d : BitVec 16)
  /-- `sthu`, Store Half Word with Update (R150). -/
  | sthu (rs : Reg) (ra : Reg) (d : BitVec 16)
  /-- `lmw`, Load Multiple Word (R151). -/
  | lmw (rd : Reg) (ra : Reg) (d : BitVec 16)
  /-- `stmw`, Store Multiple Word (R152). -/
  | stmw (rs : Reg) (ra : Reg) (d : BitVec 16)
  /-- `lfs`, Load Floating-Point Single (R153). -/
  | lfs (frd : FReg) (ra : Reg) (d : BitVec 16)
  /-- `lfsu`, Load Floating-Point Single with Update (R154). -/
  | lfsu (frd : FReg) (ra : Reg) (d : BitVec 16)
  /-- `lfd`, Load Floating-Point Double (R155). -/
  | lfd (frd : FReg) (ra : Reg) (d : BitVec 16)
  /-- `lfdu`, Load Floating-Point Double with Update (R156). -/
  | lfdu (frd : FReg) (ra : Reg) (d : BitVec 16)
  /-- `stfs`, Store Floating-Point Single (R157). -/
  | stfs (frs : FReg) (ra : Reg) (d : BitVec 16)
  /-- `stfsu`, Store Floating-Point Single with Update (R158). -/
  | stfsu (frs : FReg) (ra : Reg) (d : BitVec 16)
  /-- `stfd`, Store Floating-Point Double (R159). -/
  | stfd (frs : FReg) (ra : Reg) (d : BitVec 16)
  /-- `stfdu`, Store Floating-Point Double with Update (R160). -/
  | stfdu (frs : FReg) (ra : Reg) (d : BitVec 16)
  /-- `ld`, Load Double Word (R161). -/
  | ld (rd : Reg) (ra : Reg) (ds : BitVec 14)
  /-- `ldu`, Load Double Word with Update (R162). -/
  | ldu (rd : Reg) (ra : Reg) (ds : BitVec 14)
  /-- `lwa`, Load Word Algebraic (R163). -/
  | lwa (rd : Reg) (ra : Reg) (ds : BitVec 14)
  /-- `std`, Store Double Word (R164). -/
  | std (rs : Reg) (ra : Reg) (ds : BitVec 14)
  /-- `stdu`, Store Double Word with Update (R165). -/
  | stdu (rs : Reg) (ra : Reg) (ds : BitVec 14)
  /-- `lwarx`, Load Word and Reserve Indexed (R166). -/
  | lwarx (rd : Reg) (ra : Reg) (rb : Reg)
  /-- `ldarx`, Load Double Word and Reserve Indexed (R167). -/
  | ldarx (rd : Reg) (ra : Reg) (rb : Reg)
  /-- `ldx`, Load Double Word Indexed (R168). -/
  | ldx (rd : Reg) (ra : Reg) (rb : Reg)
  /-- `ldux`, Load Double Word with Update Indexed (R169). -/
  | ldux (rd : Reg) (ra : Reg) (rb : Reg)
  /-- `stdx`, Store Double Word Indexed (R170). -/
  | stdx (rs : Reg) (ra : Reg) (rb : Reg)
  /-- `stdux`, Store Double Word with Update Indexed (R171). -/
  | stdux (rs : Reg) (ra : Reg) (rb : Reg)
  /-- `lwax`, Load Word Algebraic Indexed (R172). -/
  | lwax (rd : Reg) (ra : Reg) (rb : Reg)
  /-- `lwaux`, Load Word Algebraic with Update Indexed (R173). -/
  | lwaux (rd : Reg) (ra : Reg) (rb : Reg)
  /-- `lswx`, Load String Word Indexed (R174). -/
  | lswx (rd : Reg) (ra : Reg) (rb : Reg)
  /-- `lswi`, Load String Word Immediate (R175). -/
  | lswi (rd : Reg) (ra : Reg) (nb : BitVec 5)
  /-- `stswx`, Store String Word Indexed (R176). -/
  | stswx (rs : Reg) (ra : Reg) (rb : Reg)
  /-- `stswi`, Store String Word Immediate (R177). -/
  | stswi (rs : Reg) (ra : Reg) (nb : BitVec 5)
  /-- `stwcx.`, Store Word Conditional Indexed (R178). -/
  | stwcxDot (rs : Reg) (ra : Reg) (rb : Reg)
  /-- `stdcx.`, Store Double Word Conditional Indexed (R179). -/
  | stdcxDot (rs : Reg) (ra : Reg) (rb : Reg)
  /-- `lwbrx`, Load Word Byte-Reverse Indexed (R180). -/
  | lwbrx (rd : Reg) (ra : Reg) (rb : Reg)
  /-- `stwbrx`, Store Word Byte-Reverse Indexed (R181). -/
  | stwbrx (rs : Reg) (ra : Reg) (rb : Reg)
  /-- `lhbrx`, Load Half Word Byte-Reverse Indexed (R182). -/
  | lhbrx (rd : Reg) (ra : Reg) (rb : Reg)
  /-- `sthbrx`, Store Half Word Byte-Reverse Indexed (R183). -/
  | sthbrx (rs : Reg) (ra : Reg) (rb : Reg)
  /-- `eciwx`, External Control In Word Indexed (R184). -/
  | eciwx (rd : Reg) (ra : Reg) (rb : Reg)
  /-- `ecowx`, External Control Out Word Indexed (R185). -/
  | ecowx (rs : Reg) (ra : Reg) (rb : Reg)
  /-- `dcbz`, Data Cache Block Set to Zero (R186). -/
  | dcbz (ra : Reg) (rb : Reg)
  /-- `lwzx`, Load Word and Zero Indexed (R187). -/
  | lwzx (rd : Reg) (ra : Reg) (rb : Reg)
  /-- `lwzux`, Load Word and Zero with Update Indexed (R188). -/
  | lwzux (rd : Reg) (ra : Reg) (rb : Reg)
  /-- `stwx`, Store Word Indexed (R189). -/
  | stwx (rs : Reg) (ra : Reg) (rb : Reg)
  /-- `stwux`, Store Word with Update Indexed (R190). -/
  | stwux (rs : Reg) (ra : Reg) (rb : Reg)
  /-- `lhzx`, Load Half Word and Zero Indexed (R191). -/
  | lhzx (rd : Reg) (ra : Reg) (rb : Reg)
  /-- `lhzux`, Load Half Word and Zero with Update Indexed (R192). -/
  | lhzux (rd : Reg) (ra : Reg) (rb : Reg)
  /-- `lhax`, Load Half Word Algebraic Indexed (R193). -/
  | lhax (rd : Reg) (ra : Reg) (rb : Reg)
  /-- `lhaux`, Load Half Word Algebraic with Update Indexed (R194). -/
  | lhaux (rd : Reg) (ra : Reg) (rb : Reg)
  /-- `sthx`, Store Half Word Indexed (R195). -/
  | sthx (rs : Reg) (ra : Reg) (rb : Reg)
  /-- `sthux`, Store Half Word with Update Indexed (R196). -/
  | sthux (rs : Reg) (ra : Reg) (rb : Reg)
  /-- `lfsx`, Load Floating-Point Single Indexed (R197). -/
  | lfsx (frd : FReg) (ra : Reg) (rb : Reg)
  /-- `lfsux`, Load Floating-Point Single with Update Indexed (R198). -/
  | lfsux (frd : FReg) (ra : Reg) (rb : Reg)
  /-- `lfdx`, Load Floating-Point Double Indexed (R199). -/
  | lfdx (frd : FReg) (ra : Reg) (rb : Reg)
  /-- `lfdux`, Load Floating-Point Double with Update Indexed (R200). -/
  | lfdux (frd : FReg) (ra : Reg) (rb : Reg)
  /-- `stfsx`, Store Floating-Point Single Indexed (R201). -/
  | stfsx (frs : FReg) (ra : Reg) (rb : Reg)
  /-- `stfsux`, Store Floating-Point Single with Update Indexed (R202). -/
  | stfsux (frs : FReg) (ra : Reg) (rb : Reg)
  /-- `stfdx`, Store Floating-Point Double Indexed (R203). -/
  | stfdx (frs : FReg) (ra : Reg) (rb : Reg)
  /-- `stfdux`, Store Floating-Point Double with Update Indexed (R204). -/
  | stfdux (frs : FReg) (ra : Reg) (rb : Reg)
  /-- `stfiwx`, Store Floating-Point as Integer Word Indexed (R205). -/
  | stfiwx (frs : FReg) (ra : Reg) (rb : Reg)
  /-- `lbz`, Load Byte and Zero (R206). -/
  | lbz (rd : Reg) (ra : Reg) (d : BitVec 16)
  /-- `lbzu`, Load Byte and Zero with Update (R207). -/
  | lbzu (rd : Reg) (ra : Reg) (d : BitVec 16)
  /-- `stb`, Store Byte (R208). -/
  | stb (rs : Reg) (ra : Reg) (d : BitVec 16)
  /-- `stbu`, Store Byte with Update (R209). -/
  | stbu (rs : Reg) (ra : Reg) (d : BitVec 16)
  /-- `lbzx`, Load Byte and Zero Indexed (R210). -/
  | lbzx (rd : Reg) (ra : Reg) (rb : Reg)
  /-- `lbzux`, Load Byte and Zero with Update Indexed (R211). -/
  | lbzux (rd : Reg) (ra : Reg) (rb : Reg)
  /-- `stbx`, Store Byte Indexed (R212). -/
  | stbx (rs : Reg) (ra : Reg) (rb : Reg)
  /-- `stbux`, Store Byte with Update Indexed (R213). -/
  | stbux (rs : Reg) (ra : Reg) (rb : Reg)
  /-- `icbi`, Instruction Cache Block Invalidate (R214). -/
  | icbi (ra : Reg) (rb : Reg)
  /-- `dcbi`, Data Cache Block Invalidate (R215). -/
  | dcbi (ra : Reg) (rb : Reg)
  /-- `dcbst`, Data Cache Block Store (R216). -/
  | dcbst (ra : Reg) (rb : Reg)
  /-- `dcbf`, Data Cache Block Flush (R217). -/
  | dcbf (ra : Reg) (rb : Reg)
deriving DecidableEq, Repr

end Sys2Proof
end

