-- ==== Sys2Proof/Decode.lean ====
section
/-! DEFINITION. The decoder and the encoder (30_encoding.md R90 to R98, R100). -/

namespace Sys2Proof

/-! ## The formats (30 R92) -/

/-- D-form: opcode, bits 6-10, bits 11-15, sixteen bits of displacement or immediate. -/
def formD (op : BitVec 6) (rt ra : BitVec 5) (d : BitVec 16) : InstWord := op ++ rt ++ ra ++ d

/-- DS-form: as D-form with a fourteen-bit displacement and a two-bit sub-opcode. -/
def formDS (op : BitVec 6) (rt ra : BitVec 5) (ds : BitVec 14) (xo : BitVec 2) : InstWord :=
  op ++ rt ++ ra ++ ds ++ xo

/-- X-, XL-, XFX- and SC-form: three five-bit fields, a ten-bit extended opcode, and bit 31. -/
def formX (op : BitVec 6) (rt ra rb : BitVec 5) (xo : BitVec 10) (rc : BitVec 1) : InstWord :=
  op ++ rt ++ ra ++ rb ++ xo ++ rc

/-- The low-order half of an SPR number, instruction bits 11-15 (30 R94). -/
def sprLow (n : SprNum) : BitVec 5 := n.extractLsb' 0 5

/-- The high-order half of an SPR number, instruction bits 16-20 (30 R94). -/
def sprHigh (n : SprNum) : BitVec 5 := n.extractLsb' 5 5

/-! ## The encoder -/

/-- The word of an instruction (30 R96, R98). -/
def encode : Instr → InstWord
  | .tdi cond ra simm => formD 2 cond ra simm
  | .twi cond ra simm => formD 3 cond ra simm
  | .sc => formX 17 0 0 0 1 0
  | .rfid => formX 19 0 0 0 18 0
  | .rfi => formX 19 0 0 0 50 0
  | .isync => formX 19 0 0 0 150 0
  | .tw cond ra rb => formX 31 cond ra rb 4 0
  | .td cond ra rb => formX 31 cond ra rb 68 0
  | .mfmsr rd => formX 31 rd 0 0 83 0
  | .mtmsr rs => formX 31 rs 0 0 146 0
  | .mtmsrd rs => formX 31 rs 0 0 178 0
  | .mfspr rd spr => formX 31 rd (sprLow spr) (sprHigh spr) 339 0
  | .mtspr spr rs => formX 31 rs (sprLow spr) (sprHigh spr) 467 0
  | .sync => formX 31 0 0 0 598 0
  | .lwz rd ra d => formD 32 rd ra d
  | .lwzu rd ra d => formD 33 rd ra d
  | .stw rs ra d => formD 36 rs ra d
  | .stwu rs ra d => formD 37 rs ra d
  | .lhz rd ra d => formD 40 rd ra d
  | .lhzu rd ra d => formD 41 rd ra d
  | .lha rd ra d => formD 42 rd ra d
  | .lhau rd ra d => formD 43 rd ra d
  | .sth rs ra d => formD 44 rs ra d
  | .sthu rs ra d => formD 45 rs ra d
  | .lmw rd ra d => formD 46 rd ra d
  | .stmw rs ra d => formD 47 rs ra d
  | .lfs frd ra d => formD 48 frd ra d
  | .lfsu frd ra d => formD 49 frd ra d
  | .lfd frd ra d => formD 50 frd ra d
  | .lfdu frd ra d => formD 51 frd ra d
  | .stfs frs ra d => formD 52 frs ra d
  | .stfsu frs ra d => formD 53 frs ra d
  | .stfd frs ra d => formD 54 frs ra d
  | .stfdu frs ra d => formD 55 frs ra d
  | .ld rd ra ds => formDS 58 rd ra ds 0
  | .ldu rd ra ds => formDS 58 rd ra ds 1
  | .lwa rd ra ds => formDS 58 rd ra ds 2
  | .std rs ra ds => formDS 62 rs ra ds 0
  | .stdu rs ra ds => formDS 62 rs ra ds 1
  | .lwarx rd ra rb => formX 31 rd ra rb 20 0
  | .ldarx rd ra rb => formX 31 rd ra rb 84 0
  | .ldx rd ra rb => formX 31 rd ra rb 21 0
  | .ldux rd ra rb => formX 31 rd ra rb 53 0
  | .stdx rs ra rb => formX 31 rs ra rb 149 0
  | .stdux rs ra rb => formX 31 rs ra rb 181 0
  | .lwax rd ra rb => formX 31 rd ra rb 341 0
  | .lwaux rd ra rb => formX 31 rd ra rb 373 0
  | .lswx rd ra rb => formX 31 rd ra rb 533 0
  | .lswi rd ra nb => formX 31 rd ra nb 597 0
  | .stswx rs ra rb => formX 31 rs ra rb 661 0
  | .stswi rs ra nb => formX 31 rs ra nb 725 0
  | .stwcxDot rs ra rb => formX 31 rs ra rb 150 1
  | .stdcxDot rs ra rb => formX 31 rs ra rb 214 1
  | .lwbrx rd ra rb => formX 31 rd ra rb 534 0
  | .stwbrx rs ra rb => formX 31 rs ra rb 662 0
  | .lhbrx rd ra rb => formX 31 rd ra rb 790 0
  | .sthbrx rs ra rb => formX 31 rs ra rb 918 0
  | .eciwx rd ra rb => formX 31 rd ra rb 310 0
  | .ecowx rs ra rb => formX 31 rs ra rb 438 0
  | .dcbz ra rb => formX 31 0 ra rb 1014 0
  | .lwzx rd ra rb => formX 31 rd ra rb 23 0
  | .lwzux rd ra rb => formX 31 rd ra rb 55 0
  | .stwx rs ra rb => formX 31 rs ra rb 151 0
  | .stwux rs ra rb => formX 31 rs ra rb 183 0
  | .lhzx rd ra rb => formX 31 rd ra rb 279 0
  | .lhzux rd ra rb => formX 31 rd ra rb 311 0
  | .lhax rd ra rb => formX 31 rd ra rb 343 0
  | .lhaux rd ra rb => formX 31 rd ra rb 375 0
  | .sthx rs ra rb => formX 31 rs ra rb 407 0
  | .sthux rs ra rb => formX 31 rs ra rb 439 0
  | .lfsx frd ra rb => formX 31 frd ra rb 535 0
  | .lfsux frd ra rb => formX 31 frd ra rb 567 0
  | .lfdx frd ra rb => formX 31 frd ra rb 599 0
  | .lfdux frd ra rb => formX 31 frd ra rb 631 0
  | .stfsx frs ra rb => formX 31 frs ra rb 663 0
  | .stfsux frs ra rb => formX 31 frs ra rb 695 0
  | .stfdx frs ra rb => formX 31 frs ra rb 727 0
  | .stfdux frs ra rb => formX 31 frs ra rb 759 0
  | .stfiwx frs ra rb => formX 31 frs ra rb 983 0
  | .lbz rd ra d => formD 34 rd ra d
  | .lbzu rd ra d => formD 35 rd ra d
  | .stb rs ra d => formD 38 rs ra d
  | .stbu rs ra d => formD 39 rs ra d
  | .lbzx rd ra rb => formX 31 rd ra rb 87 0
  | .lbzux rd ra rb => formX 31 rd ra rb 119 0
  | .stbx rs ra rb => formX 31 rs ra rb 215 0
  | .stbux rs ra rb => formX 31 rs ra rb 247 0
  | .icbi ra rb => formX 31 0 ra rb 982 0
  | .dcbi ra rb => formX 31 0 ra rb 470 0
  | .dcbst ra rb => formX 31 0 ra rb 54 0
  | .dcbf ra rb => formX 31 0 ra rb 86 0

/-! ## The decoder -/

/-- Why bytes are no instruction. Each reason raises the illegal-instruction program exception when the
bytes are fetched for execution (30 R100, 61 R319), except `truncated`, which a fetched word never is. -/
inductive Reject where
  /-- fewer than four bytes -/
  | truncated
  /-- a primary opcode of no row of the table -/
  | unknownOpcode
  /-- a primary opcode of the table with an extended opcode of no row -/
  | unknownExtended
  /-- opcode and extended opcode of a row with a nonzero bit where the row has zeros -/
  | reservedField
deriving DecidableEq, Repr

/-- The instruction, where the fields the format fixes hold what it asks. -/
def checked (ok : Bool) (i : Instr) : Except Reject Instr :=
  if ok then .ok i else .error .reservedField

/-- Primary opcode 31 (30 R96, R98), by extended opcode. -/
def decodeX (rt ra rb : BitVec 5) (xo : BitVec 10) (rc : BitVec 1) : Except Reject Instr :=
  match xo.toNat with
  | 4 => checked (rc == 0) (.tw rt ra rb)
  | 20 => checked (rc == 0) (.lwarx rt ra rb)
  | 21 => checked (rc == 0) (.ldx rt ra rb)
  | 23 => checked (rc == 0) (.lwzx rt ra rb)
  | 53 => checked (rc == 0) (.ldux rt ra rb)
  | 54 => checked (rt == 0 && rc == 0) (.dcbst ra rb)
  | 55 => checked (rc == 0) (.lwzux rt ra rb)
  | 68 => checked (rc == 0) (.td rt ra rb)
  | 83 => checked (ra == 0 && rb == 0 && rc == 0) (.mfmsr rt)
  | 84 => checked (rc == 0) (.ldarx rt ra rb)
  | 86 => checked (rt == 0 && rc == 0) (.dcbf ra rb)
  | 87 => checked (rc == 0) (.lbzx rt ra rb)
  | 119 => checked (rc == 0) (.lbzux rt ra rb)
  | 146 => checked (ra == 0 && rb == 0 && rc == 0) (.mtmsr rt)
  | 149 => checked (rc == 0) (.stdx rt ra rb)
  | 150 => checked (rc == 1) (.stwcxDot rt ra rb)
  | 151 => checked (rc == 0) (.stwx rt ra rb)
  | 178 => checked (ra == 0 && rb == 0 && rc == 0) (.mtmsrd rt)
  | 181 => checked (rc == 0) (.stdux rt ra rb)
  | 183 => checked (rc == 0) (.stwux rt ra rb)
  | 214 => checked (rc == 1) (.stdcxDot rt ra rb)
  | 215 => checked (rc == 0) (.stbx rt ra rb)
  | 247 => checked (rc == 0) (.stbux rt ra rb)
  | 279 => checked (rc == 0) (.lhzx rt ra rb)
  | 310 => checked (rc == 0) (.eciwx rt ra rb)
  | 311 => checked (rc == 0) (.lhzux rt ra rb)
  | 339 => checked (rc == 0) (.mfspr rt (rb ++ ra))
  | 341 => checked (rc == 0) (.lwax rt ra rb)
  | 343 => checked (rc == 0) (.lhax rt ra rb)
  | 373 => checked (rc == 0) (.lwaux rt ra rb)
  | 375 => checked (rc == 0) (.lhaux rt ra rb)
  | 407 => checked (rc == 0) (.sthx rt ra rb)
  | 438 => checked (rc == 0) (.ecowx rt ra rb)
  | 439 => checked (rc == 0) (.sthux rt ra rb)
  | 467 => checked (rc == 0) (.mtspr (rb ++ ra) rt)
  | 470 => checked (rt == 0 && rc == 0) (.dcbi ra rb)
  | 533 => checked (rc == 0) (.lswx rt ra rb)
  | 534 => checked (rc == 0) (.lwbrx rt ra rb)
  | 535 => checked (rc == 0) (.lfsx rt ra rb)
  | 567 => checked (rc == 0) (.lfsux rt ra rb)
  | 597 => checked (rc == 0) (.lswi rt ra rb)
  | 598 => checked (rt == 0 && ra == 0 && rb == 0 && rc == 0) (.sync)
  | 599 => checked (rc == 0) (.lfdx rt ra rb)
  | 631 => checked (rc == 0) (.lfdux rt ra rb)
  | 661 => checked (rc == 0) (.stswx rt ra rb)
  | 662 => checked (rc == 0) (.stwbrx rt ra rb)
  | 663 => checked (rc == 0) (.stfsx rt ra rb)
  | 695 => checked (rc == 0) (.stfsux rt ra rb)
  | 725 => checked (rc == 0) (.stswi rt ra rb)
  | 727 => checked (rc == 0) (.stfdx rt ra rb)
  | 759 => checked (rc == 0) (.stfdux rt ra rb)
  | 790 => checked (rc == 0) (.lhbrx rt ra rb)
  | 918 => checked (rc == 0) (.sthbrx rt ra rb)
  | 982 => checked (rt == 0 && rc == 0) (.icbi ra rb)
  | 983 => checked (rc == 0) (.stfiwx rt ra rb)
  | 1014 => checked (rt == 0 && rc == 0) (.dcbz ra rb)
  | _ => .error .unknownExtended

/-- Primary opcode 19 (30 R96): every field but the extended opcode is zero. -/
def decodeXL (rt ra rb : BitVec 5) (xo : BitVec 10) (rc : BitVec 1) : Except Reject Instr :=
  let plain := rt == 0 && ra == 0 && rb == 0 && rc == 0
  match xo.toNat with
  | 18 => checked plain .rfid
  | 50 => checked plain .rfi
  | 150 => checked plain .isync
  | _ => .error .unknownExtended

/-- Primary opcode 58 (30 R98), by sub-opcode. -/
def decodeLoadDS (rt ra : BitVec 5) (ds : BitVec 14) (xo : BitVec 2) : Except Reject Instr :=
  match xo.toNat with
  | 0 => .ok (.ld rt ra ds)
  | 1 => .ok (.ldu rt ra ds)
  | 2 => .ok (.lwa rt ra ds)
  | _ => .error .unknownExtended

/-- Primary opcode 62 (30 R98), by sub-opcode. -/
def decodeStoreDS (rt ra : BitVec 5) (ds : BitVec 14) (xo : BitVec 2) : Except Reject Instr :=
  match xo.toNat with
  | 0 => .ok (.std rt ra ds)
  | 1 => .ok (.stdu rt ra ds)
  | _ => .error .unknownExtended

/-- The instruction of a word, from its fields (30 R92). -/
def decodeFields (op : BitVec 6) (rt ra rb : BitVec 5) (xo : BitVec 10) (rc : BitVec 1)
    (d : BitVec 16) (ds : BitVec 14) (xo2 : BitVec 2) : Except Reject Instr :=
  match op.toNat with
  | 2 => .ok (.tdi rt ra d)
  | 3 => .ok (.twi rt ra d)
  | 17 => checked (rt == 0 && ra == 0 && rb == 0 && xo == 1 && rc == 0) .sc
  | 19 => decodeXL rt ra rb xo rc
  | 31 => decodeX rt ra rb xo rc
  | 32 => .ok (.lwz rt ra d)
  | 33 => .ok (.lwzu rt ra d)
  | 34 => .ok (.lbz rt ra d)
  | 35 => .ok (.lbzu rt ra d)
  | 36 => .ok (.stw rt ra d)
  | 37 => .ok (.stwu rt ra d)
  | 38 => .ok (.stb rt ra d)
  | 39 => .ok (.stbu rt ra d)
  | 40 => .ok (.lhz rt ra d)
  | 41 => .ok (.lhzu rt ra d)
  | 42 => .ok (.lha rt ra d)
  | 43 => .ok (.lhau rt ra d)
  | 44 => .ok (.sth rt ra d)
  | 45 => .ok (.sthu rt ra d)
  | 46 => .ok (.lmw rt ra d)
  | 47 => .ok (.stmw rt ra d)
  | 48 => .ok (.lfs rt ra d)
  | 49 => .ok (.lfsu rt ra d)
  | 50 => .ok (.lfd rt ra d)
  | 51 => .ok (.lfdu rt ra d)
  | 52 => .ok (.stfs rt ra d)
  | 53 => .ok (.stfsu rt ra d)
  | 54 => .ok (.stfd rt ra d)
  | 55 => .ok (.stfdu rt ra d)
  | 58 => decodeLoadDS rt ra ds xo2
  | 62 => decodeStoreDS rt ra ds xo2
  | _ => .error .unknownOpcode

/-- The instruction of a word (30 R90 to R98). -/
def decodeWord (w : InstWord) : Except Reject Instr :=
  decodeFields (w.extractLsb' 26 6) (w.extractLsb' 21 5) (w.extractLsb' 16 5) (w.extractLsb' 11 5)
    (w.extractLsb' 1 10) (w.extractLsb' 0 1) (w.extractLsb' 0 16) (w.extractLsb' 2 14)
    (w.extractLsb' 0 2)

/-- The word of four bytes, the first most significant. -/
def wordOfBytes (b0 b1 b2 b3 : Byte) : InstWord := b0 ++ b1 ++ b2 ++ b3

/-- The bytes of a word, most significant first. -/
def bytesOfWord (w : InstWord) : List Byte :=
  [w.extractLsb' 24 8, w.extractLsb' 16 8, w.extractLsb' 8 8, w.extractLsb' 0 8]

/-- The instruction at the head of a list of bytes in big-endian order, with the bytes that follow. -/
def decode : List Byte → Except Reject (Instr × List Byte)
  | b0 :: b1 :: b2 :: b3 :: rest =>
    match decodeWord (wordOfBytes b0 b1 b2 b3) with
    | .ok i => .ok (i, rest)
    | .error r => .error r
  | _ => .error .truncated

/-- The instruction the decoder reads from the table's word `w` (the host's numbering: bit 0 the least
significant). Every row is one whole word, so its length in bits adds nothing. -/
def decodeTableWord (_nbits w : Nat) : Option Instr :=
  match decode (bytesOfWord (BitVec.ofNat 32 w)) with
  | .ok (i, _) => some i
  | .error _ => none

end Sys2Proof
end

