-- ==== Sys2Proof/Config.lean ====
section
/-! DEFINITION. What an implementation fixes (00_scope.md R6) and the values the spec leaves free.

The configuration record is plain data held in the state and written by no step, so that a statement
about every state is a statement about every implementation (notes/assumptions/1.md). The free values
are constants without a body: nothing in Lean can evaluate one (notes/assumptions/5.md). -/

namespace Sys2Proof

/-- `XLEN`, the implementation width (00 R6, D1). -/
inductive Xlen where
  | w32
  | w64
deriving DecidableEq, Repr

/-- The attributes of a translated address that the exception rules read (20 R70, 10 R47). `bat` is
the block of a BAT entry the address lies in, if any (00 R17). -/
structure Attrs where
  writeThrough : Bool := false
  cachingInhibited : Bool := false
  guarded : Bool := false
  directStore : Bool := false
  noExecute : Bool := false
  bat : Option Nat := none
deriving DecidableEq, Repr

/-- What `Translate` answers (20 R70): a physical address with attributes, or a condition. -/
inductive XlateResult where
  /-- The access is permitted at this physical address. -/
  | ok (pa : Word) (attrs : Attrs)
  /-- No translation in the page table or a BAT range (DSISR bit 1, SRR1 bit 33). -/
  | noTranslation
  /-- The segment table search failed, 64-bit implementations (DSISR bit 10, SRR1 bit 42). -/
  | segmentFail
  /-- The protection mechanism forbids the access (DSISR bit 4, SRR1 bit 36). -/
  | protection (attrs : Attrs)
  /-- A direct-store error (DSISR bit 0); transfers already initiated reach this physical address (20
  R76). -/
  | directStoreError (pa : Word)
deriving DecidableEq, Repr

/-- What an access is for, as `Translate` sees it (20 R70). -/
inductive AccessKind where
  | fetch
  | load
  | store
deriving DecidableEq, Repr

/-- One line of `Translate` (20 R70): for an access of one of `kinds`, at an effective address from
`base` on for `size` bytes, under an MSR that agrees with `msrValue` on the bits of `msrMask`, the
answer is `result`; a physical address in it is that of `base`. The first line that applies decides
(notes/assumptions/13.md). -/
structure XlateRule where
  kinds : List AccessKind
  base : Nat
  size : Nat
  msrMask : Word := 0
  msrValue : Word := 0
  result : XlateResult
deriving DecidableEq, Repr

/-- The three answers of `ALIGN_POLICY` (61 R312). -/
inductive AlignChoice where
  | exception
  | correct
  | undefined
deriving DecidableEq, Repr

/-- One line of `ALIGN_POLICY(inst, EA, MSR)` (61 R312): the first line that applies decides; where
none does, the default of 92 D8 (notes/assumptions/15.md). -/
structure AlignRule where
  instMask : InstWord := 0
  instValue : InstWord := 0
  base : Nat := 0
  size : Nat := 2 ^ 64
  msrMask : Word := 0
  msrValue : Word := 0
  choice : AlignChoice
deriving DecidableEq, Repr

/-- A range of physical addresses that hold memory (20 R63, 92 D14). -/
structure Region where
  base : Nat
  size : Nat
deriving DecidableEq, Repr

/-- The configuration record (00_scope.md R6). -/
structure Config where
  /-- `XLEN` (D1). -/
  xlen : Xlen
  /-- `HAS_ISF`: `MSR[ISF]` is implemented (D2). -/
  hasIsf : Bool
  /-- `HAS_BRIDGE_RFI`: `rfi` and `mtmsr` execute on a 64-bit implementation (D2). -/
  hasBridgeRfi : Bool
  /-- `HAS_POW` (D3). -/
  hasPow : Bool
  /-- `HAS_TRACE` (D4). -/
  hasTrace : Bool
  /-- `HAS_FPASSIST` (D5): no instruction of the table raises that exception (61 R339). -/
  hasFpAssist : Bool
  /-- `HAS_DABR` (D6). -/
  hasDabr : Bool
  /-- `eciwx`, `ecowx` and the EAR are provided (93 U28). -/
  hasExtControl : Bool
  /-- `stfiwx` is provided (42 R205). -/
  hasStfiwx : Bool
  /-- `COPY_RESERVED_TO_SRR1` (D7). -/
  copyReserved : Bool
  /-- `SRR_CLOBBER` (D34). -/
  srrClobber : Bool
  /-- After `mtmsr` or `mtmsrd` each later instruction may run under the old or the new value of each
  changed bit, up to the next context-synchronizing operation (40 R114); `false` is the default of 93
  U8, the new value at once (notes/assumptions/11.md). -/
  msrWindow : Bool
  /-- The DSISR of an alignment exception may be any the source permits; `false` is the default of
  93 U5, the instruction's own image (notes/assumptions/21.md). -/
  dsisrAlternatives : Bool
  /-- The implementation has no data cache or a write-through one (61 R311 item (h)). -/
  dcbzUncached : Bool
  /-- `MCHECK_CAUSES`: an access where the platform has no memory is a machine check (61 R298, D9). -/
  mcheckOnAbsent : Bool
  /-- The `state_lost` bit of such a machine check (10 R50). -/
  busErrorLost : Bool
  /-- `TICK`: completed steps per decrementer count (D12). -/
  tick : Nat
  /-- `BLOCK_BYTES` is two to this power (D35). -/
  blockLog : Nat
  /-- `RESET_IP` (D13). -/
  resetIp : Bool
  /-- `Translate` (D16). -/
  xlate : List XlateRule
  /-- `ALIGN_POLICY` (D8). -/
  alignRules : List AlignRule
  /-- The physical addresses that hold memory (D14). -/
  memMap : List Region
deriving DecidableEq, Repr

/-- The configuration of the machine after reset. Every value is a DESIGN CHOICE of this model
(notes/assumptions/1.md), because the spec leaves the parameters of 00 R6 open; unsafe for a claim about
`State.reset` alone. A 64-bit implementation with the bridge, power saving, trace, floating-point assist,
the DABR, external control and `stfiwx`, without `MSR[ISF]`; reserved bits copied to SRR1; SRR0 and SRR1
not modified by translated accesses; the new MSR in force at once after `mtmsr` (the default of 93 U8);
the DSISR of an alignment exception always the instruction's own image (the default of 93 U5); a data
cache that is not write-through, so that `dcbz` meets the second half of 61 R311 (h) never
(`dcbzUncached` false); absent memory a machine check whose `state_lost` bit is 0 (`busErrorLost` false);
one step per decrementer count; blocks of 32 bytes; `IP` set; no translation; the default alignment
policy; memory at every physical address. -/
def Config.atReset : Config where
  xlen := .w64
  hasIsf := false
  hasBridgeRfi := true
  hasPow := true
  hasTrace := true
  hasFpAssist := true
  hasDabr := true
  hasExtControl := true
  hasStfiwx := true
  copyReserved := true
  srrClobber := false
  msrWindow := false
  dsisrAlternatives := false
  dcbzUncached := false
  mcheckOnAbsent := true
  busErrorLost := false
  tick := 1
  blockLog := 5
  resetIp := true
  xlate := []
  alignRules := []
  memMap := [{ base := 0, size := 2 ^ 64 }]

/-- The purposes a free value serves; one purpose never shares a draw with another. -/
inductive Draw where
  /-- which value of a changed MSR bit is in force after `mtmsr` (93 U8) -/
  | context
  /-- reserved MSR bits as `mfmsr` reads them (93 U1) -/
  | msrRead
  /-- SRR0 bits 62 and 63 as `mfspr` reads them (93 U12) -/
  | srr0Read
  /-- SRR0 after a translated fetch or access (93 U7) -/
  | srr0Clobber
  /-- SRR1 after a translated fetch or access (93 U7) -/
  | srr1Clobber
  /-- DSISR bits 22 to 26 of a `dcbz` alignment exception (93 U6) -/
  | dsisrTarget
  /-- DSISR bits 27 to 31 where undefined (93 U6) -/
  | dsisrLow
  /-- own or paired DSISR image (93 U5) -/
  | dsisrPair
  /-- which permitted pair of three DSI conditions is reported (61 R302) -/
  | dsiPair
  /-- CR0 after a partially executed store conditional (93 U11) -/
  | cr0
  /-- whether a byte of a partially executed store was written (93 U10) -/
  | partialByte
  /-- whether a register of a partially executed multiple or string load was loaded (93 U10) -/
  | partialReg
  /-- the target of a partially executed floating-point load (20 R76) -/
  | partialFpr
  /-- DSI for a store conditional without the reservation (93 U14) -/
  | condStoreDsi
  /-- a DABR match that is undefined (93 U15) -/
  | dabrMatch
  /-- the word an external device delivers to `eciwx` (41 R184) -/
  | external
  /-- `stfs` of a value outside the single format (notes/assumptions/32.md) -/
  | single
  /-- general registers after boundedly-undefined results (93 U2) -/
  | undefGpr
  /-- floating-point registers after boundedly-undefined results (93 U2) -/
  | undefFpr
  /-- CR, XER and the reservation after boundedly-undefined results (93 U2) -/
  | undefMisc
  /-- general registers after a hard reset (10 R55) -/
  | resetGpr
  /-- floating-point registers after a hard reset (10 R55) -/
  | resetFpr
  /-- the other registers a hard reset leaves unspecified (10 R55) -/
  | resetMisc
deriving DecidableEq, Repr

/-- A free bit: purpose, draw counter, index. DESIGN CHOICE of form (notes/assumptions/5.md). -/
opaque Config.freeBit : Draw → Nat → Nat → Bool

/-- A free word: purpose, draw counter, index (notes/assumptions/5.md). -/
opaque Config.freeWord : Draw → Nat → Nat → Word

/-- A free list of byte stores, for boundedly-undefined results (93 U2) and for memory after a hard
reset (70 R352), by draw counter (notes/assumptions/5.md). -/
opaque Config.freeStores : Nat → List (Word × Byte)

end Sys2Proof
end

