-- ==== Sys2Proof/Machine/Forms.lean ====
section
/-! DEFINITION. What the spec says of an instruction's form before it executes: whether the
implementation provides it, whether the form is valid, whether it is privileged, floating-point,
traceable, and which instruction it may share its DSISR image with. -/

namespace Sys2Proof

/-- A 64-bit implementation. -/
def Config.is64 (c : Config) : Bool := c.xlen == .w64

/-- The implementation provides the instruction (30 R100 (b), (g); 40 R111, R114; 61 R319): the
double-word instructions, `rfid`, `mtmsrd`, `td` and `tdi` on 64-bit implementations only; `rfi` and
`mtmsr` on a 64-bit implementation with the bridge only; `eciwx`, `ecowx`, `stfiwx` where provided. -/
def Instr.provided (c : Config) : Instr → Bool
  | .tdi _ _ _ | .rfid | .td _ _ _ | .mtmsrd _ | .ld _ _ _ | .ldu _ _ _ | .lwa _ _ _ | .std _ _ _
    | .stdu _ _ _ | .ldarx _ _ _ | .ldx _ _ _ | .ldux _ _ _ | .stdx _ _ _ | .stdux _ _ _
    | .lwax _ _ _ | .lwaux _ _ _ | .stdcxDot _ _ _ => c.is64
  | .rfi | .mtmsr _ => !c.is64 || c.hasBridgeRfi
  | .eciwx _ _ _ | .ecowx _ _ _ => c.hasExtControl
  | .stfiwx _ _ _ => c.hasStfiwx
  | _ => true

/-- The form is valid as far as the word alone tells (30 R100 (c), 42 R219): an update form names a
base register other than r0, an integer load with update does not name its target as base, `lmw` does
not name its base among the registers it loads. The validity of `lswx` depends on the XER as well and
is `stringFormValid`. -/
def Instr.validForm : Instr → Bool
  | .lwzu rd ra _ | .lhzu rd ra _ | .lhau rd ra _ | .ldu rd ra _ | .ldux rd ra _ | .lwaux rd ra _
    | .lwzux rd ra _ | .lhzux rd ra _ | .lhaux rd ra _ | .lbzu rd ra _ | .lbzux rd ra _ => ra != 0 && ra != rd
  | .stwu _ ra _ | .sthu _ ra _ | .lfsu _ ra _ | .lfdu _ ra _ | .stfsu _ ra _ | .stfdu _ ra _
    | .stdu _ ra _ | .stdux _ ra _ | .stwux _ ra _ | .sthux _ ra _ | .lfsux _ ra _ | .lfdux _ ra _
    | .stfsux _ ra _ | .stfdux _ ra _ | .stbu _ ra _ | .stbux _ ra _ => ra != 0
  | .lmw rd ra _ => ra.toNat < rd.toNat
  | _ => true

/-- `lswx` names neither its base nor its index register among the `n` bytes' registers it loads, from
`rd` on, four bytes a register, the numbers wrapping from 31 to 0 (41 R174, 61 R319). -/
def stringFormValid (rd ra rb : Reg) (n : Nat) : Bool :=
  let count := (n + 3) / 4
  !((ra - rd).toNat < count || (rb - rd).toNat < count)

/-- Privileged whatever its operands (61 R320, R341). `mtspr` and `mfspr` depend on the SPR number. -/
def Instr.privileged : Instr → Bool
  | .rfi | .rfid | .mtmsr _ | .mtmsrd _ | .mfmsr _ | .dcbi _ _ => true
  | _ => false

/-- A floating-point instruction for the purpose of `MSR[FP]` (42 R221). -/
def Instr.isFloat : Instr → Bool
  | .lfs _ _ _ | .lfsu _ _ _ | .lfd _ _ _ | .lfdu _ _ _ | .stfs _ _ _ | .stfsu _ _ _ | .stfd _ _ _
    | .stfdu _ _ _ | .lfsx _ _ _ | .lfsux _ _ _ | .lfdx _ _ _ | .lfdux _ _ _ | .stfsx _ _ _
    | .stfsux _ _ _ | .stfdx _ _ _ | .stfdux _ _ _ | .stfiwx _ _ _ => true
  | _ => false

/-- `mtmsr` and `mtmsrd`, which change the MSR without synchronizing the context (60 R242, R243). -/
def Instr.movesToMsr : Instr → Bool
  | .mtmsr _ | .mtmsrd _ => true
  | _ => false

/-- Not excluded from tracing by name: every instruction but `rfi` and `rfid` (61 R336). -/
def Instr.traceable : Instr → Bool
  | .rfi | .rfid => false
  | _ => true

/-- A branch instruction (61 R335): the table has none (91 N34). -/
def Instr.isBranch (_ : Instr) : Bool := false

/-- The paired instruction whose DSISR image an alignment exception may record instead (42 R218). The
second register of an indexed form and the displacement of an immediate form leave no trace there. -/
def Instr.pair : Instr → Option Instr
  | .lbz rd ra _ => some (.lbzx rd ra 0)
  | .lbzx rd ra _ => some (.lbz rd ra 0)
  | .lbzu rd ra _ => some (.lbzux rd ra 0)
  | .lbzux rd ra _ => some (.lbzu rd ra 0)
  | .lhz rd ra _ => some (.lhzx rd ra 0)
  | .lhzx rd ra _ => some (.lhz rd ra 0)
  | .lhzu rd ra _ => some (.lhzux rd ra 0)
  | .lhzux rd ra _ => some (.lhzu rd ra 0)
  | .lha rd ra _ => some (.lhax rd ra 0)
  | .lhax rd ra _ => some (.lha rd ra 0)
  | .lhau rd ra _ => some (.lhaux rd ra 0)
  | .lhaux rd ra _ => some (.lhau rd ra 0)
  | .lwz rd ra _ => some (.lwzx rd ra 0)
  | .lwzx rd ra _ => some (.lwz rd ra 0)
  | .lwzu rd ra _ => some (.lwzux rd ra 0)
  | .lwzux rd ra _ => some (.lwzu rd ra 0)
  | .lwa rd ra _ => some (.lwax rd ra 0)
  | .lwax rd ra _ => some (.lwa rd ra 0)
  | .ld rd ra _ => some (.ldx rd ra 0)
  | .ldx rd ra _ => some (.ld rd ra 0)
  | .ldu rd ra _ => some (.ldux rd ra 0)
  | .ldux rd ra _ => some (.ldu rd ra 0)
  | .stb rs ra _ => some (.stbx rs ra 0)
  | .stbx rs ra _ => some (.stb rs ra 0)
  | .stbu rs ra _ => some (.stbux rs ra 0)
  | .stbux rs ra _ => some (.stbu rs ra 0)
  | .sth rs ra _ => some (.sthx rs ra 0)
  | .sthx rs ra _ => some (.sth rs ra 0)
  | .sthu rs ra _ => some (.sthux rs ra 0)
  | .sthux rs ra _ => some (.sthu rs ra 0)
  | .stw rs ra _ => some (.stwx rs ra 0)
  | .stwx rs ra _ => some (.stw rs ra 0)
  | .stwu rs ra _ => some (.stwux rs ra 0)
  | .stwux rs ra _ => some (.stwu rs ra 0)
  | .std rs ra _ => some (.stdx rs ra 0)
  | .stdx rs ra _ => some (.std rs ra 0)
  | .stdu rs ra _ => some (.stdux rs ra 0)
  | .stdux rs ra _ => some (.stdu rs ra 0)
  | .lfs frd ra _ => some (.lfsx frd ra 0)
  | .lfsx frd ra _ => some (.lfs frd ra 0)
  | .lfsu frd ra _ => some (.lfsux frd ra 0)
  | .lfsux frd ra _ => some (.lfsu frd ra 0)
  | .lfd frd ra _ => some (.lfdx frd ra 0)
  | .lfdx frd ra _ => some (.lfd frd ra 0)
  | .lfdu frd ra _ => some (.lfdux frd ra 0)
  | .lfdux frd ra _ => some (.lfdu frd ra 0)
  | .stfs frs ra _ => some (.stfsx frs ra 0)
  | .stfsx frs ra _ => some (.stfs frs ra 0)
  | .stfsu frs ra _ => some (.stfsux frs ra 0)
  | .stfsux frs ra _ => some (.stfsu frs ra 0)
  | .stfd frs ra _ => some (.stfdx frs ra 0)
  | .stfdx frs ra _ => some (.stfd frs ra 0)
  | .stfdu frs ra _ => some (.stfdux frs ra 0)
  | .stfdux frs ra _ => some (.stfdu frs ra 0)
  | _ => none

end Sys2Proof
end

