-- ==== Sys2Proof/Machine/Flags.lean ====
section
/-! DEFINITION. The fields of the status and control registers, and the flag computations.

`getMsbD n` reads bit `n` counted from the most significant, so on a `Word` it is `b64(n)` of
00_scope.md R7 and on a 32-bit register the bit of that number. -/

namespace Sys2Proof.Machine

/-! ## MSR (10_state.md R20 to R33) -/

/-- `MSR[SF]`, `b64` 0 (R21). -/
def msrSF (m : Word) : Bool := m.getMsbD 0
/-- `MSR[ISF]`, `b64` 2 (R22). -/
def msrISF (m : Word) : Bool := m.getMsbD 2
/-- `MSR[POW]`, `b64` 45 (R23). -/
def msrPOW (m : Word) : Bool := m.getMsbD 45
/-- `MSR[ILE]`, `b64` 47 (R24). -/
def msrILE (m : Word) : Bool := m.getMsbD 47
/-- `MSR[EE]`, `b64` 48 (R25). -/
def msrEE (m : Word) : Bool := m.getMsbD 48
/-- `MSR[PR]`, `b64` 49 (R26). -/
def msrPR (m : Word) : Bool := m.getMsbD 49
/-- `MSR[FP]`, `b64` 50 (R27). -/
def msrFP (m : Word) : Bool := m.getMsbD 50
/-- `MSR[ME]`, `b64` 51 (R28). -/
def msrME (m : Word) : Bool := m.getMsbD 51
/-- `MSR[FE0]`, `b64` 52 (R29). -/
def msrFE0 (m : Word) : Bool := m.getMsbD 52
/-- `MSR[SE]`, `b64` 53 (R30). -/
def msrSE (m : Word) : Bool := m.getMsbD 53
/-- `MSR[BE]`, `b64` 54 (R30). -/
def msrBE (m : Word) : Bool := m.getMsbD 54
/-- `MSR[FE1]`, `b64` 55 (R29). -/
def msrFE1 (m : Word) : Bool := m.getMsbD 55
/-- `MSR[IP]`, `b64` 57 (R31). -/
def msrIP (m : Word) : Bool := m.getMsbD 57
/-- `MSR[IR]`, `b64` 58 (R32). -/
def msrIR (m : Word) : Bool := m.getMsbD 58
/-- `MSR[DR]`, `b64` 59 (R32). -/
def msrDR (m : Word) : Bool := m.getMsbD 59
/-- `MSR[RI]`, `b64` 62 (R32). -/
def msrRI (m : Word) : Bool := m.getMsbD 62
/-- `MSR[LE]`, `b64` 63 (R32). -/
def msrLE (m : Word) : Bool := m.getMsbD 63

/-- The mask of `MSR[SF]`. -/
def maskSF : Word := 0x8000000000000000
/-- The mask of `MSR[ISF]`. -/
def maskISF : Word := 0x2000000000000000

/-- The MSR bits that are defined on this implementation and lie in the ranges an exception saves
(60 R273). -/
def savedDefinedMask (c : Config) : Word :=
  0xF973
    ||| (if c.hasTrace then 0x0600 else 0)
    ||| (if c.is64 then maskSF else 0)
    ||| (if c.is64 && c.hasIsf then maskISF else 0)

/-- The defined MSR bits of this implementation (10 R20, R33): `POW` and `ILE` beside those above. -/
def definedMask (c : Config) : Word :=
  savedDefinedMask c ||| 0x10000 ||| (if c.hasPow then 0x40000 else 0)

/-- The MSR bits that an exception copies to SRR1, reserved or not: `b64` 0-32, 37-41 and 48-63 (60
R272). -/
def copyMask (c : Config) : Word :=
  if c.is64 then 0xFFFFFFFF87C0FFFF else 0x87C0FFFF

/-- The SRR1 bits that `rfi` copies to the MSR: `b64` 32, 37-41 and 48-63 (40 R111). -/
def returnMask : Word := 0x87C0FFFF

/-! ## XER, CR, EAR, DABR -/

/-- `XER[SO]`, bit 0: PRESUMED position (notes/assumptions/8.md). -/
def xerSO (xer : BitVec 32) : Bool := xer.getMsbD 0

/-- `XER[25-31]`, the string byte count (10 R41). -/
def xerCount (xer : BitVec 32) : Nat := (xer.extractLsb' 0 7).toNat

/-- `EAR[E]`, bit 0: PRESUMED position (10 R42, notes/assumptions/8.md). -/
def earE (ear : BitVec 32) : Bool := ear.getMsbD 0

/-- `DABR[DAB]`, the double-word address: the high-order bits above the three control bits (10 R43). -/
def dabrDAB (dabr : Word) : BitVec 61 := dabr.extractLsb' 3 61
/-- `DABR[BT]`: PRESUMED position `b64` 61 (10 R43, notes/assumptions/8.md). -/
def dabrBT (dabr : Word) : Bool := dabr.getMsbD 61
/-- `DABR[DW]`: PRESUMED position `b64` 62 (10 R43, notes/assumptions/8.md). -/
def dabrDW (dabr : Word) : Bool := dabr.getMsbD 62
/-- `DABR[DR]`: PRESUMED position `b64` 63 (10 R43, notes/assumptions/8.md). -/
def dabrDR (dabr : Word) : Bool := dabr.getMsbD 63

/-- The condition register with CR0, its first four bits, replaced. -/
def withCr0 (cr : BitVec 32) (v : BitVec 4) : BitVec 32 := v ++ cr.extractLsb' 0 28

/-- CR0 after a store conditional: `0b00 || stored || XER[SO]` (41 R178, R179). -/
def condStoreCr0 (stored : Bool) (xer : BitVec 32) : BitVec 4 :=
  0#2 ++ BitVec.ofBool stored ++ BitVec.ofBool (xerSO xer)

/-! ## Conditions -/

/-- `TrapCond(TO, a, b)` (40 R123, 30 R95). -/
def trapCond (cond : TrapTo) (a b : Word) : Bool :=
  (cond.getMsbD 0 && a.slt b) || (cond.getMsbD 1 && b.slt a) || (cond.getMsbD 2 && a == b)
    || (cond.getMsbD 3 && a.ult b) || (cond.getMsbD 4 && b.ult a)

end Sys2Proof.Machine
end

