-- ==== Sys2Proof/Machine/State.lean ====
section
/-! DEFINITION. The state of the machine as plain data, the exceptions, the environment's moves, the
reasons a step can stop, and the state after reset.

Where a field is the model's own and not the spec's, its comment says so. INVENTORY.md lists every
field with its rule, width and reset value. -/

namespace Sys2Proof.Machine

/-- Memory: (physical address, byte) pairs, addresses strictly rising, no byte equal to what an
unlisted address reads as (`Memory.wf`). -/
abbrev Memory := List Host.Cell

/-- The cause of an ISI exception, as the SRR1 bit it sets (61 R306). -/
inductive IsiCause where
  /-- bit 42: the segment table search failed -/
  | segmentFail
  /-- bit 33: no translation found -/
  | noTranslation
  /-- bit 35: direct-store, no-execute or guarded -/
  | noFetch
  /-- bit 36: protection -/
  | protection
deriving DecidableEq, Repr

/-- The cause of a program exception, as the SRR1 bit it sets (61 R317). -/
inductive ProgramCause where
  /-- bit 43 -/
  | fpEnabled
  /-- bit 44 -/
  | illegal
  /-- bit 45 -/
  | privileged
  /-- bit 46 -/
  | trap
deriving DecidableEq, Repr

/-- The twelve defined exceptions (60 R231) with the information each is taken with (60 R270). -/
inductive Exc where
  | systemReset (lost : Bool)
  | machineCheck (lost : Bool)
  | dsi (dsisr : BitVec 32) (dar : Word)
  | isi (cause : IsiCause)
  | external
  | alignment (dsisr : BitVec 32) (dar : Word)
  | program (cause : ProgramCause) (later : Bool)
  | fpUnavailable
  | decrementer
  | systemCall
  | trace
  | fpAssist
deriving DecidableEq, Repr

/-- The environment's moves (70 R373): exactly these. -/
inductive EnvMove where
  | setExternal (level : Bool)
  | requestSystemReset (lost : Bool)
  | requestMachineCheck (lost : Bool)
  | setFex (value : Bool)
  | hardReset
deriving DecidableEq, Repr

/-- What `ecowx` sent to the external device (41 R185): the translated address, unmodified in little-endian
mode (notes/assumptions/48.md), the word, and which of its four bytes were sent, most significant first: all
of them, unless the instruction was abandoned (20 R76). A byte not sent is zero in the word. -/
structure DeviceWord where
  pa : Word
  word : BitVec 32
  sent : BitVec 4
deriving DecidableEq, Repr

/-- The state of the machine. -/
structure State where
  /-- the configuration record (00 R6); no step writes it -/
  cfg : Config
  /-- general registers (10 R45) -/
  gpr : Vector Word 32
  /-- floating-point registers (10 R45) -/
  fpr : Vector Word 32
  /-- the next instruction address NIA (10 R46) -/
  nia : Word
  /-- the address of the instruction in execution CIA (10 R46) -/
  cia : Word
  /-- the machine state register (10 R20) -/
  msr : Word
  /-- earlier MSR values still possibly in force after `mtmsr`, latest first (40 R114, 60 R242) -/
  window : List Word
  /-- save/restore register 0 (10 R34) -/
  srr0 : Word
  /-- save/restore register 1 (10 R35) -/
  srr1 : Word
  /-- DSISR (10 R37) -/
  dsisr : BitVec 32
  /-- data address register (10 R38) -/
  dar : Word
  /-- decrementer (10 R39) -/
  dec : BitVec 32
  /-- the decrementer request latch (10 R49) -/
  decPending : Bool
  /-- completed steps since the last count (61 R329) -/
  tickCount : Nat
  /-- condition register, CR0 its four most significant bits (10 R44) -/
  cr : BitVec 32
  /-- XER (10 R41) -/
  xer : BitVec 32
  /-- link register, named by 60 R270 and R283 only -/
  lr : Word
  /-- count register, named by 60 R270 and R283 only -/
  ctr : Word
  /-- FPSCR[FEX] (10 R40) -/
  fex : Bool
  /-- external access register (10 R42) -/
  ear : BitVec 32
  /-- data address breakpoint register (10 R43) -/
  dabr : Word
  /-- the reservation: none, or set with an effective address (10 R53, 91 N11) -/
  reservation : Option Word
  /-- level of the external interrupt input (10 R48) -/
  extSignal : Bool
  /-- the system reset condition (10 R50) -/
  sresetReq : Bool
  /-- its `state_lost` (10 R50) -/
  sresetLost : Bool
  /-- the machine check condition (10 R50) -/
  mcheckReq : Bool
  /-- its `state_lost` (10 R50) -/
  mcheckLost : Bool
  /-- checkstop state (10 R51) -/
  checkstop : Bool
  /-- memory, by physical address (20 R60) -/
  mem : Memory
  /-- words sent to the external device by `ecowx`, latest first: the model's own record (41 R185) -/
  extOut : List DeviceWord
  /-- the environment's moves, one list a step: the model's own form of 70 R373 -/
  env : List (List EnvMove)
  /-- the draw counter, to which the free values of Config are applied: the model's own -/
  draws : Nat
  /-- an exception was taken in the step in progress: the model's own (60 R263 steps 8 and 9) -/
  taken : Bool
deriving DecidableEq, Repr

/-- Why a step can fault: a closed list. -/
inductive Fault where
  /-- Raised by an access to a physical address at which the platform has no memory, where the platform
  makes it no machine check (`Config.mcheckOnAbsent` false): "either a machine check or nothing the
  architecture defines" (61 R298, 92 D14). Safe: the hardware goes on with values the spec does not
  give. -/
  | noMemory
deriving DecidableEq, Repr

/-- Why an instruction can be refused: a closed list. -/
inductive Refusal where
  /-- Raised by an arm of `exec` whose instruction has no meaning yet. Safe. -/
  | notModelled (mnemonic : String)
deriving DecidableEq, Repr

/-- What a step or a meaning answers. -/
abbrev Result := Host.Outcome State Fault Refusal

/-- The machine right after a hard reset (10_state.md R55, 92 D13), in the configuration
`Config.atReset`: MSR with SF and IP set, NIA at the system reset vector of IP = 1. The values R55
leaves unspecified are those of notes/assumptions/2.md; memory lists nothing (notes/assumptions/3.md). -/
def State.reset : State where
  cfg := Config.atReset
  gpr := Vector.replicate 32 0
  fpr := Vector.replicate 32 0
  nia := 0xFFFFFFFFFFF00100
  cia := 0
  msr := 0x8000000000000040
  window := []
  srr0 := 0
  srr1 := 0
  dsisr := 0
  dar := 0
  dec := 0xFFFFFFFF
  decPending := false
  tickCount := 0
  cr := 0
  xer := 0
  lr := 0
  ctr := 0
  fex := false
  ear := 0
  dabr := 0
  reservation := none
  extSignal := false
  sresetReq := false
  sresetLost := false
  mcheckReq := false
  mcheckLost := false
  checkstop := false
  mem := []
  extOut := []
  env := []
  draws := 0
  taken := false

end Sys2Proof.Machine
end

