-- ==== Sys2Proof/Machine/Ops.lean ====
section
/-! DEFINITION. The named operations over registers and memory, the context an instruction executes
in, translation, and taking an exception and returning from one. -/

namespace Sys2Proof.Machine

/-! ## Widths -/

/-- The low-order 32 bits, the high-order 32 cleared. -/
def low32 (a : Word) : Word := a &&& 0xFFFFFFFF

/-- A value as a register of `XLEN` bits holds it (10 R20, notes/assumptions/10.md). -/
def truncXlen (c : Config) (v : Word) : Word := if c.is64 then v else low32 v

/-- An address as mode `MSR[SF]` of `m` forms it: the high-order 32 bits are zero in 32-bit mode and on
a 32-bit implementation (20 R60, 10 R21). -/
def addressIn (c : Config) (m a : Word) : Word := if c.is64 && msrSF m then a else low32 a

/-! ## Memory -/

/-- What a byte that nothing has written reads as: DESIGN CHOICE (notes/assumptions/3.md). -/
def unlistedByte : Byte := 0

/-- The byte at a physical address. -/
def Memory.read : Memory → Word → Byte
  | [], _ => unlistedByte
  | (k, v) :: rest, a => if k = a.toNat then v else Memory.read rest a

/-- Memory with the byte at a physical address replaced, in canonical form. -/
def Memory.write : Memory → Word → Byte → Memory
  | [], a, v => if v = unlistedByte then [] else [(a.toNat, v)]
  | (k, b) :: rest, a, v =>
    if a.toNat < k then
      if v = unlistedByte then (k, b) :: rest else (a.toNat, v) :: (k, b) :: rest
    else if a.toNat = k then
      if v = unlistedByte then rest else (k, v) :: rest
    else (k, b) :: Memory.write rest a v

/-- Canonical form of a memory whose addresses are not below `lo`. -/
def Memory.wfFrom : Nat → Memory → Bool
  | _, [] => true
  | lo, (k, v) :: rest =>
    decide (lo ≤ k) && decide (k < 2 ^ 64) && v != unlistedByte && Memory.wfFrom (k + 1) rest

/-- Canonical form: addresses strictly rising within the address space, no entry equal to what an
unlisted address reads as. -/
def Memory.wf (m : Memory) : Bool := Memory.wfFrom 0 m

/-- The platform has memory at this physical address (20 R63, 92 D14). -/
def memoryAt (c : Config) (pa : Word) : Bool :=
  c.memMap.any fun r => decide (r.base ≤ pa.toNat) && decide (pa.toNat < r.base + r.size)

/-- The bytes stored one by one. -/
def writeBytes (m : Memory) : List (Word × Byte) → Memory
  | [] => m
  | (a, b) :: rest => writeBytes (Memory.write m a b) rest

/-- The number of a list of bytes, the first most significant. -/
def ofBytes (bytes : List Byte) : Word :=
  bytes.foldl (fun acc b => (acc <<< 8) ||| b.setWidth 64) 0

/-- The `n` low-order bytes of a word, most significant first. -/
def toBytes : Nat → Word → List Byte
  | 0, _ => []
  | n + 1, v => (v >>> (8 * n)).setWidth 8 :: toBytes n v

/-! ## Free values -/

/-- The free bit of this step for a purpose and index (notes/assumptions/5.md). -/
def State.freeBit (s : State) (d : Draw) (i : Nat) : Bool := Config.freeBit d s.draws i

/-- The free word of this step for a purpose and index (notes/assumptions/5.md). -/
def State.freeWord (s : State) (d : Draw) (i : Nat) : Word := Config.freeWord d s.draws i

/-! ## The context an instruction executes in -/

/-- The MSR value in force when each bit may still be that of an earlier value: each earlier value in
turn may hold a bit back, as a free word selects; never `ISF`, which needs no synchronization (10 R22,
40 R114, 60 R242). A value's free word is numbered by the values before it, so that it stays the same
when a step opens the window further. -/
def mixContext (n : Nat) : Word → List Word → Word
  | cur, [] => cur
  | cur, old :: rest =>
    let new := Config.freeWord .context n rest.length ||| maskISF
    mixContext n ((cur &&& new) ||| (old &&& ~~~new)) rest

/-- The MSR value the current instruction is fetched and executed under. It is the MSR unless `mtmsr`
has opened a window that no context-synchronizing operation has closed (notes/assumptions/11.md). -/
def State.context (s : State) : Word := mixContext s.draws s.msr s.window

/-- An effective address in the current mode (20 R60, R67). -/
def State.maskEa (s : State) (a : Word) : Word := addressIn s.cfg s.context a

/-! ## Registers -/

/-- `x[r]` (00 R9). -/
def State.readGpr (s : State) (r : Reg) : Word := s.gpr[r.toNat]'r.isLt

/-- `x[r] <- v` (00 R9). -/
def State.setGpr (s : State) (r : Reg) (v : Word) : State :=
  { s with gpr := s.gpr.set r.toNat (truncXlen s.cfg v) r.isLt }

/-- `f[r]` (10 R45). -/
def State.readFpr (s : State) (r : FReg) : Word := s.fpr[r.toNat]'r.isLt

/-- `f[r] <- v` (10 R45). -/
def State.setFpr (s : State) (r : FReg) (v : Word) : State :=
  { s with fpr := s.fpr.set r.toNat v r.isLt }

/-- The base register of an update form takes the effective address; other forms name none. -/
def State.updateBase (s : State) (base : Option Reg) (ea : Word) : State :=
  match base with
  | some ra => s.setGpr ra ea
  | none => s

/-- A change of the decrementer signals a request when bit 0 goes from 0 to 1 (61 R326). -/
def State.setDec (s : State) (v : BitVec 32) : State :=
  { s with dec := v, decPending := s.decPending || (!s.dec.getMsbD 0 && v.getMsbD 0) }

/-- CR0 replaced. -/
def State.setCr0 (s : State) (v : BitVec 4) : State := { s with cr := withCr0 s.cr v }

/-! ## Translation and byte order -/

/-- The line of `Translate` applies to this access. -/
def xlateApplies (r : XlateRule) (kind : AccessKind) (ea m : Word) : Bool :=
  decide (kind ∈ r.kinds) && decide (r.base ≤ ea.toNat) && decide (ea.toNat < r.base + r.size)
    && (m &&& r.msrMask) == r.msrValue

/-- The line's answer for an address it applies to. A physical address has 64 bits on both widths, and is
not truncated where `XLEN` is 32: DESIGN CHOICE, because the spec gives it no width
(notes/assumptions/42.md). -/
def xlateAnswer (r : XlateRule) (ea : Word) : XlateResult :=
  let offset := ea - BitVec.ofNat 64 r.base
  match r.result with
  | .ok pa attrs => .ok (pa + offset) attrs
  | .directStoreError pa => .directStoreError (pa + offset)
  | other => other

/-- `Translate(kind, EA, MSR, access)` (20 R70): the first line that applies; no translation where none
does. -/
def translateBy : List XlateRule → AccessKind → Word → Word → XlateResult
  | [], _, _, _ => .noTranslation
  | r :: rest, kind, ea, m => if xlateApplies r kind ea m then xlateAnswer r ea else translateBy rest kind ea m

/-- Translation of an access in the current context: the identity without conditions when `MSR[IR]`
(fetch) or `MSR[DR]` (data) is 0 (20 R60, R67, 92 D16). -/
def State.translate (s : State) (kind : AccessKind) (ea : Word) : XlateResult :=
  let on := match kind with
    | .fetch => msrIR s.context
    | _ => msrDR s.context
  if on then translateBy s.cfg.xlate kind ea s.context else .ok ea {}

/-- The physical byte an access to one byte of an operand reaches. In little-endian mode the low-order
three address bits of an aligned operand of 1, 2, 4 or 8 bytes are modified by exclusive-or with 7, 6, 4
or 0 and the data path stays big-endian (20 R68); byte by byte that is exclusive-or with 7 together with
least significant byte first (`orderBytes`). The statement OperandByteOrder says the two accounts agree;
notes/assumptions/12.md says what it means for a misaligned operand. -/
def State.byteAddress (s : State) (pa : Word) : Word :=
  if msrLE s.context then pa ^^^ 7 else pa

/-- The bytes of an operand in the order of significance, most significant first, from its bytes in
address order; and back (20 R68). -/
def State.orderBytes (s : State) (bytes : List Byte) : List Byte :=
  if msrLE s.context then bytes.reverse else bytes

/-! ## Taking an exception (60_exceptions.md R270 to R276) -/

/-- The vector offsets (20 R62). -/
def Exc.offset : Exc → Word
  | .systemReset _ => 0x100
  | .machineCheck _ => 0x200
  | .dsi _ _ => 0x300
  | .isi _ => 0x400
  | .external => 0x500
  | .alignment _ _ => 0x600
  | .program _ _ => 0x700
  | .fpUnavailable => 0x800
  | .decrementer => 0x900
  | .systemCall => 0xC00
  | .trace => 0xD00
  | .fpAssist => 0xE00

/-- `VectorBase(IP)` (20 R61). -/
def vectorBase (c : Config) (ip : Bool) : Word :=
  if ip then (if c.is64 then 0xFFFFFFFFFFF00000 else 0xFFF00000) else 0

/-- The SRR1 bit of an ISI cause (61 R306). -/
def IsiCause.bit : IsiCause → Word
  | .segmentFail => 0x00200000
  | .noTranslation => 0x40000000
  | .noFetch => 0x10000000
  | .protection => 0x08000000

/-- The SRR1 bit of a program exception's cause (61 R317). -/
def ProgramCause.bit : ProgramCause → Word
  | .fpEnabled => 0x00100000
  | .illegal => 0x00080000
  | .privileged => 0x00040000
  | .trap => 0x00020000

/-- SRR1 bits 33-36 and 42-47 on entry (60 R272). -/
def Exc.srr1Info : Exc → Word
  | .isi cause => cause.bit
  | .program cause later => cause.bit ||| (if later then 0x00010000 else 0)
  | _ => 0

/-- `SaveImage(E, m, info)`, SRR1 on entry (60 R272, R273): the copied MSR bits with the information
bits; for ISI only `b64` 48-63 are copied (61 R306); for system reset and machine check bit 62 is cleared
when the state is lost (61 R291, R295). -/
def saveImage (c : Config) (e : Exc) (m : Word) : Word :=
  let range : Word := match e with
    | .isi _ => (0xFFFF : Word)
    | _ => copyMask c
  let kept : Word := if c.copyReserved then range else range &&& savedDefinedMask c
  let image : Word := (m &&& kept) ||| e.srr1Info
  match e with
  | .systemReset true | .machineCheck true => image &&& ~~~(0x2 : Word)
  | _ => image

/-- `EntryMSR(E, m)` (60 R274). -/
def entryMsr (c : Config) (e : Exc) (m : Word) : Word :=
  let common : Word := (m &&& ~~~(0x0004EF33 : Word)) ||| ((m >>> 16) &&& 1)
  let masked : Word := match e with
    | .machineCheck _ => common &&& ~~~(0x1000 : Word)
    | _ => common
  if c.is64 then
    if c.hasIsf && !msrISF m then masked &&& ~~~maskSF else masked ||| maskSF
  else masked

/-- DSISR and DAR are written by DSI and alignment exceptions and by no other (60 R270 step 4). -/
def Exc.fault? : Exc → Option (BitVec 32 × Word)
  | .dsi dsisr dar | .alignment dsisr dar => some (dsisr, dar)
  | _ => none

/-- `TakeException(E, srr0, info)` (60 R270), one indivisible change. Entry is context synchronizing, so
it closes the `mtmsr` window. The `IP` that selects the vector is the one in force (20 R61, 40 R114); what
entry saves and changes is the MSR register (notes/assumptions/11.md). -/
def takeException (e : Exc) (srr0 : Word) (s : State) : State :=
  { s with
    srr0 := addressIn s.cfg s.msr srr0
    srr1 := saveImage s.cfg e s.msr
    dsisr := (e.fault?.map Prod.fst).getD s.dsisr
    dar := (e.fault?.map Prod.snd).getD s.dar
    decPending := match e with
      | .decrementer => false
      | _ => s.decPending
    sresetReq := match e with
      | .systemReset _ => false
      | _ => s.sresetReq
    mcheckReq := match e with
      | .machineCheck _ => false
      | _ => s.mcheckReq
    msr := entryMsr s.cfg e s.msr
    nia := vectorBase s.cfg (msrIP s.context) + e.offset
    window := []
    taken := true }

/-- A meaning that takes an exception with SRR0 the address of the instruction (60 R271). -/
def raise (e : Exc) (s : State) : Result := .next (takeException e s.cia s)

/-- A machine check condition found with a given value of `MSR[ME]` and SRR0: the exception when `ME` is
1, checkstop when it is 0, in which no register is written (61 R295, R297, R299). -/
def machineCheckAt (enabled : Bool) (srr0 : Word) (lost : Bool) (s : State) : State :=
  if enabled then takeException (.machineCheck lost) srr0 s
  else { s with checkstop := true, mcheckReq := false }

/-! ## Returning, and completing an instruction -/

/-- `ReturnTo(SRR0)`'s target under a new MSR value (40 R112). -/
def returnTarget (c : Config) (newMsr srr0 : Word) : Word :=
  addressIn c newMsr (srr0 &&& ~~~3)

/-- The MSR after `rfi` or `rfid`: the SRR1 bits of `mask` copied, the others unchanged (40 R111,
R113). -/
def restoredMsr (mask msr srr1 : Word) : Word := (msr &&& ~~~mask) ||| (srr1 &&& mask)

/-- The return from an exception (40 R111 to R113, 60 R284): the MSR bits of `mask` come back from SRR1
and execution continues where SRR0 says, in the context established. A pending exception that the new
MSR enables is taken by the next step, before the fetch (60 R264). -/
def returnFrom (mask : Word) (s : State) : State :=
  let m := restoredMsr mask s.msr s.srr1
  { s with msr := m, nia := returnTarget s.cfg m s.srr0, window := [] }

/-- The instruction completes without branching: `NIA = CIA + 4` in the current mode (00 R9, 92 D11). -/
def State.complete (s : State) : State := { s with nia := s.maskEa (s.cia + 4) }

end Sys2Proof.Machine
end

