-- ==== Sys2Proof/Machine/Operands.lean ====
section
/-! DEFINITION. The operand forms (30_encoding.md R93, R95): effective addresses and the operands of the
trap instructions. -/

namespace Sys2Proof.Machine

/-- `(rA|0)`: zero when the field is 0, else the register (30 R93). -/
def State.baseOrZero (s : State) (ra : Reg) : Word := if ra = 0 then 0 else s.readGpr ra

/-- The effective address of a D-form: `(rA|0) + sext(d)` (30 R93), in the current mode (20 R60). -/
def State.eaD (s : State) (ra : Reg) (d : BitVec 16) : Word :=
  s.maskEa (s.baseOrZero ra + d.signExtend 64)

/-- The effective address of a DS-form: `(rA|0) + sext(ds || 0b00)` (30 R93). -/
def State.eaDS (s : State) (ra : Reg) (ds : BitVec 14) : Word :=
  s.maskEa (s.baseOrZero ra + (ds ++ (0 : BitVec 2)).signExtend 64)

/-- The effective address of an X-form: `(rA|0) + x[rB]` (30 R93). -/
def State.eaX (s : State) (ra rb : Reg) : Word := s.maskEa (s.baseOrZero ra + s.readGpr rb)

/-- The effective address of `lswi` and `stswi`: `(rA|0)` (41 R175, R177). -/
def State.eaBase (s : State) (ra : Reg) : Word := s.maskEa (s.baseOrZero ra)

/-- The byte count of `lswi` and `stswi`: `NB`, or 32 when `NB` is 0 (41 R175, R177). -/
def immediateCount (nb : BitVec 5) : Nat := if nb = 0 then 32 else nb.toNat

/-- The low-order 32 bits, sign-extended: the operand of `tw` and `twi` (40 R119). -/
def wordOperand (v : Word) : Word := (v.setWidth 32).signExtend 64

/-- `sext(SIMM)` (40 R121, R122). -/
def immediateOperand (simm : BitVec 16) : Word := simm.signExtend 64

end Sys2Proof.Machine
end

