-- ==== Sys2Proof/Machine/Access.lean ====
section
/-! DEFINITION. The common procedure of the storage instructions, `ExecStorage` (41 R140): admission,
alignment, DSI, presence of memory, partial execution, and the transfer. -/

namespace Sys2Proof.Machine

/-! ## Admission (41 R140 steps 1 and 2, 61 R319, R320, R322) -/

/-- An instruction that is not provided or whose form is invalid is illegal; a privileged one in user
mode is a privileged-instruction exception; a floating-point one with `MSR[FP]` = 0 is unavailable;
every other executes. -/
def whenAdmitted (i : Instr) (s : State) (k : State → Result) : Result :=
  if !(i.provided s.cfg && i.validForm) then raise (.program .illegal false) s
  else if i.privileged && msrPR s.context then raise (.program .privileged false) s
  else if i.isFloat && !msrFP s.context then raise .fpUnavailable s
  else k s

/-! ## Accesses -/

/-- The class of a storage instruction as the exception rules tell them apart (41 R140, 61 R311). -/
inductive AccessClass where
  /-- elementary integer, byte-reverse among them -/
  | int
  | fp
  | multiple
  | string
  /-- with reservation -/
  | reserve
  | external
  | dcbz
  /-- `icbi`, `dcbi`, `dcbst`, `dcbf` -/
  | cache
deriving DecidableEq, Repr

/-- A storage access: the instruction, its class, whether the exception rules treat it as a store, its
effective address in the current mode, and its length in bytes. -/
structure Access where
  instr : Instr
  cls : AccessClass
  store : Bool
  ea : Word
  len : Nat
deriving DecidableEq, Repr

/-- What translation is asked for. -/
def Access.kind (a : Access) : AccessKind := if a.store then .store else .load

/-- The effective address of byte `i` of the operand. -/
def State.byteEa (s : State) (a : Access) (i : Nat) : Word := s.maskEa (a.ea + BitVec.ofNat 64 i)

/-- How many bytes are translated: a cache instruction is translated at its effective address
(notes/assumptions/30.md). -/
def Access.span (a : Access) : Nat :=
  match a.cls with
  | .dcbz | .cache => 1
  | _ => a.len

/-- Translation of byte `i` of the operand. -/
def State.byteXlate (s : State) (a : Access) (i : Nat) : XlateResult :=
  s.translate a.kind (s.byteEa a i)

/-- The physical address of a translation; zero where there is none (never used then). -/
def xlatePa : XlateResult → Word
  | .ok pa _ | .directStoreError pa => pa
  | _ => 0

/-- The attributes of a translation, none where it fails without any; a direct-store error is one of a
direct-store segment. -/
def xlateAttrs : XlateResult → Attrs
  | .ok _ attrs | .protection attrs => attrs
  | .directStoreError _ => { directStore := true }
  | _ => {}

/-- The physical address byte `i` of the operand is transferred at (20 R67, R68). -/
def State.bytePa (s : State) (a : Access) (i : Nat) : Word := s.byteAddress (xlatePa (s.byteXlate a i))

/-- The physical addresses of the cache block of `2 ^ blockLog` bytes that contains the translated
effective address (41 R186, 92 D35). -/
def State.block (s : State) (a : Access) : List Word :=
  let start := (xlatePa (s.byteXlate a 0) >>> s.cfg.blockLog) <<< s.cfg.blockLog
  (List.range (2 ^ s.cfg.blockLog)).map fun i => start + BitVec.ofNat 64 i

/-- The physical addresses of the memory the instruction touches when it is performed: none for the
other cache instructions, for external control, and for a store conditional without the reservation. -/
def State.touched (s : State) (a : Access) : List Word :=
  match a.cls with
  | .cache | .external => []
  | .dcbz => s.block a
  | .reserve =>
    if a.store && s.reservation.isNone then [] else (List.range a.len).map (s.bytePa a)
  | _ => (List.range a.len).map (s.bytePa a)

/-! ## Alignment (61 R311, R312) -/

/-- The protection domain of a byte (00 R17; notes/assumptions/14.md). -/
inductive Domain where
  | segment (n : Nat)
  | block (n : Nat)
  | page (n : Nat)
  | unmapped
deriving DecidableEq, Repr

/-- Byte `i` of the operand lies in a direct-store segment (00 R17, 10 R47). -/
def State.byteDirect (s : State) (a : Access) (i : Nat) : Bool :=
  (xlateAttrs (s.byteXlate a i)).directStore

/-- The number of the 256-Mbyte segment of byte `i`. -/
def State.byteSegment (s : State) (a : Access) (i : Nat) : Nat := (s.byteEa a i).toNat / 2 ^ 28

/-- The protection domain of byte `i`. -/
def State.byteDomain (s : State) (a : Access) (i : Nat) : Domain :=
  if s.byteDirect a i then .segment (s.byteSegment a i)
  else
    match s.byteXlate a i with
    | .ok _ attrs | .protection attrs =>
      match attrs.bat with
      | some n => .block n
      | none => .page ((s.byteEa a i).toNat / 2 ^ 12)
    | _ => .unmapped

/-- Some byte of the operand lies in a direct-store segment; with translation off there is no segment. -/
def State.anyDirect (s : State) (a : Access) : Bool := (List.range a.span).any (s.byteDirect a)

/-- The operand crosses a 256-Mbyte boundary. -/
def State.crossesSegment (s : State) (a : Access) : Bool :=
  (List.range a.span).any fun i => s.byteSegment a i != s.byteSegment a 0

/-- The operand crosses a boundary between protection domains, defined only with `MSR[DR]` = 1 (00
R17). -/
def State.crossesDomain (s : State) (a : Access) : Bool :=
  msrDR s.context && (List.range a.span).any fun i => s.byteDomain a i != s.byteDomain a 0

/-- The bytes before the first protection boundary the operand crosses; all, where it crosses none. -/
def State.boundaryReach (s : State) (a : Access) : Nat :=
  if s.crossesDomain a then
    ((List.range a.span).find? fun i => s.byteDomain a i != s.byteDomain a 0).getD a.len
  else a.len

/-- The operand crosses a segment or BAT boundary, defined only with `MSR[DR]` = 1 (61 R311 (g)). -/
def State.crossesSegmentOrBat (s : State) (a : Access) : Bool :=
  msrDR s.context && (List.range a.span).any fun i =>
    s.byteSegment a i != s.byteSegment a 0 ||
      (xlateAttrs (s.byteXlate a i)).bat != (xlateAttrs (s.byteXlate a 0)).bat

/-- The effective address is a multiple of `n`. -/
def Access.alignedTo (a : Access) (n : Nat) : Bool := a.ea.toNat % n == 0

/-- The alignment items (a), (b), (e), (f), (g), (h), (k) of 61 R311, for which the implementation may
execute the instruction correctly instead. -/
def State.alignItem (s : State) (a : Access) : Bool :=
  match a.cls with
  | .int => (a.len == 8 && !a.alignedTo 4) || s.crossesDomain a || (msrLE s.context && !a.alignedTo a.len)
  | .fp =>
    !a.alignedTo 4 || s.anyDirect a || s.crossesDomain a || (msrLE s.context && !a.alignedTo a.len)
  | .string => s.crossesDomain a
  | .multiple => s.crossesSegmentOrBat a
  | .dcbz =>
    let attrs := xlateAttrs (s.byteXlate a 0)
    attrs.writeThrough || attrs.cachingInhibited || s.cfg.dcbzUncached
  | _ => false

/-- The alignment items (d), (i), (j) of 61 R311, which have no alternative. -/
def State.alignForced (s : State) (a : Access) : Bool :=
  match a.cls with
  | .multiple | .string => msrLE s.context || (s.anyDirect a && s.crossesSegment a)
  | .int | .fp | .reserve => s.anyDirect a && s.crossesSegment a
  | _ => false

/-- The alignment item (c) of 61 R311. -/
def Access.alignRequired (a : Access) : Bool :=
  match a.cls with
  | .multiple | .external => !a.alignedTo 4
  | .reserve => !a.alignedTo a.len
  | _ => false

/-- A misaligned elementary operand, for which the policy may ask for the exception even where no item
holds (61 R311). -/
def Access.misaligned (a : Access) : Bool :=
  match a.cls with
  | .int | .fp => !a.alignedTo a.len
  | _ => false

/-- `ALIGN_POLICY(inst, EA, MSR)` (61 R312): the first line that applies. -/
def alignPolicy (rules : List AlignRule) (w : InstWord) (ea m : Word) : Option AlignChoice :=
  match rules with
  | [] => none
  | r :: rest =>
    if (w &&& r.instMask) == r.instValue && decide (r.base ≤ ea.toNat)
        && decide (ea.toNat < r.base + r.size) && (m &&& r.msrMask) == r.msrValue
    then some r.choice else alignPolicy rest w ea m

/-- What becomes of the access's alignment: the policy's choice, restricted per item as 61 R311 and R312
say; the default of 92 D8 where no line applies (notes/assumptions/15.md). -/
def State.alignChoice (s : State) (a : Access) : AlignChoice :=
  let policy := alignPolicy s.cfg.alignRules (encode a.instr) a.ea s.context
  if s.alignForced a then .exception
  else if a.alignRequired then
    match policy with
    | some .undefined => .undefined
    | some .correct => if a.cls == .external && !earE s.ear then .correct else .exception
    | _ => .exception
  else if s.alignItem a then
    match policy with
    | some .correct => .correct
    | _ => .exception
  else if a.misaligned then
    match policy with
    | some .exception => .exception
    | _ => .correct
  else .correct

/-! ## DSISR of an alignment exception (61 R314, 42 R218) -/

/-- Bits 11-15 of the instruction are recorded: update forms, and `lmw`, `lswi`, `lswx`. -/
def namesBase : Instr → Bool
  | .lwzu _ _ _ | .stwu _ _ _ | .lhzu _ _ _ | .lhau _ _ _ | .sthu _ _ _ | .lfsu _ _ _ | .lfdu _ _ _
    | .stfsu _ _ _ | .stfdu _ _ _ | .ldu _ _ _ | .stdu _ _ _ | .ldux _ _ _ | .stdux _ _ _
    | .lwaux _ _ _ | .lwzux _ _ _ | .stwux _ _ _ | .lhzux _ _ _ | .lhaux _ _ _ | .sthux _ _ _
    | .lfsux _ _ _ | .lfdux _ _ _ | .stfsux _ _ _ | .stfdux _ _ _ | .lbzu _ _ _ | .stbu _ _ _
    | .lbzux _ _ _ | .stbux _ _ _ | .lmw _ _ _ | .lswi _ _ _ | .lswx _ _ _ => true
  | _ => false

/-- Bits 12-21 of the image, from the instruction word alone. -/
def imageOpcode (w : InstWord) : BitVec 10 :=
  let op : BitVec 6 := w.extractLsb' 26 6
  let sub : BitVec 2 := if op = 58 ∨ op = 62 then w.extractLsb' 0 2 else 0
  if op = 31 then
    sub ++ (0 : BitVec 1) ++ w.extractLsb' 1 2 ++ w.extractLsb' 6 1 ++ w.extractLsb' 7 4
  else sub ++ (0 : BitVec 3) ++ w.extractLsb' 26 1 ++ w.extractLsb' 27 4

/-- The register field of bits 27-31. For `lmw`, `lswi`, `lswx` an implementation may record any
register outside the range loaded instead (93 U6). -/
def State.imageBase (s : State) (a : Access) : BitVec 5 :=
  let w := encode a.instr
  let ra : BitVec 5 := w.extractLsb' 16 5
  let free : BitVec 5 := (s.freeWord .dsisrLow 0).setWidth 5
  if namesBase a.instr then
    match a.cls with
    | .multiple | .string =>
      let rd : BitVec 5 := w.extractLsb' 21 5
      if s.cfg.dsisrAlternatives && decide ((a.len + 3) / 4 ≤ (free - rd).toNat) then free else ra
    | _ => ra
  else free

/-- `AlignImage(inst)`, bits 12 to 31; bits 0 to 11 are zero. The image may be that of the paired
instruction where the configuration draws it (93 U5). -/
def State.alignImage (s : State) (a : Access) : BitVec 32 :=
  let w := encode a.instr
  let imaged := match a.instr.pair with
    | some p => if s.cfg.dsisrAlternatives && s.freeBit .dsisrPair 0 then encode p else w
    | none => w
  let target : BitVec 5 :=
    if a.cls == .dcbz then (s.freeWord .dsisrTarget 0).setWidth 5 else w.extractLsb' 21 5
  (0 : BitVec 12) ++ imageOpcode imaged ++ target ++ s.imageBase a

/-! ## DSI (61 R300 to R304) -/

/-- DSISR bit 0, a direct-store error. -/
def dsiDirectStore : BitVec 32 := 0x80000000
/-- DSISR bit 1, no translation. -/
def dsiNoTranslation : BitVec 32 := 0x40000000
/-- DSISR bit 4, protection. -/
def dsiProtection : BitVec 32 := 0x08000000
/-- DSISR bit 5, instruction not supported for the memory addressed. -/
def dsiUnsupported : BitVec 32 := 0x04000000
/-- DSISR bit 6, a store. -/
def dsiStore : BitVec 32 := 0x02000000
/-- DSISR bit 9, a DABR match. -/
def dsiBreakpoint : BitVec 32 := 0x00400000
/-- DSISR bit 10, the segment table search failed. -/
def dsiSegment : BitVec 32 := 0x00200000
/-- DSISR bit 11, `eciwx` or `ecowx` with `EAR[E]` = 0. -/
def dsiExternal : BitVec 32 := 0x00100000

/-- The instruction is not supported for memory with these attributes (61 R300 (c), (d)). -/
def unsupported (cls : AccessClass) (attrs : Attrs) : Bool :=
  match cls with
  | .reserve => attrs.writeThrough || attrs.directStore
  | .external => attrs.directStore
  | _ => false

/-- The DSISR bits of one byte's translation (61 R302). A direct-store error that Translate reports for
`icbi`, `dcbi`, `dcbst`, `dcbf` or `dcbz` is bit 0 like that of a load or store: DESIGN CHOICE, because 42
R214 to R217 and 41 R186 list no such cause for them and R302 bit 0 names loads and stores
(notes/assumptions/47.md). -/
def conditionBits (c : Config) (cls : AccessClass) (r : XlateResult) : BitVec 32 :=
  match r with
  | .ok _ attrs => if unsupported cls attrs then dsiUnsupported else 0
  | .noTranslation => dsiNoTranslation
  | .segmentFail => if c.is64 then dsiSegment else dsiNoTranslation
  | .protection attrs =>
    dsiProtection ||| (if unsupported cls attrs then dsiUnsupported else 0)
  | .directStoreError _ =>
    if cls == .reserve || cls == .external then dsiUnsupported else dsiDirectStore

/-- The first byte whose translation reports a condition. -/
def State.firstFault (s : State) (a : Access) : Option Nat :=
  (List.range a.span).find? fun i => conditionBits s.cfg a.cls (s.byteXlate a i) != 0

/-- The bytes the access covers touch the double word `DABR[DAB]`; for `dcbz` the whole block (61
R304). -/
def State.dabrCovers (s : State) (a : Access) : Bool :=
  match a.cls with
  | .cache => false
  | .dcbz =>
    let shift := max s.cfg.blockLog 3
    a.ea >>> shift == (dabrDAB s.dabr ++ (0 : BitVec 3)) >>> shift
  | _ => (List.range a.len).any fun i => (s.byteEa a i).extractLsb' 3 61 == dabrDAB s.dabr

/-- The address and enable conditions of a DABR match (61 R304). -/
def State.dabrConditions (s : State) (a : Access) : Bool :=
  s.cfg.hasDabr && dabrBT s.dabr == msrDR s.context
    && (if a.store then dabrDW s.dabr else dabrDR s.dabr) && s.dabrCovers a

/-- It is undefined whether a match occurs for `dcbz`, external control, and a store conditional that
is not performed (61 R304, 93 U15). -/
def State.dabrUndefined (s : State) (a : Access) : Bool :=
  match a.cls with
  | .dcbz | .external => true
  | .reserve => a.store && s.reservation.isNone
  | _ => false

/-- A DABR match occurs. -/
def State.dabrMatch (s : State) (a : Access) : Bool :=
  s.dabrConditions a && (!s.dabrUndefined a || s.freeBit .dabrMatch 0)

/-- The conditions as they may be reported together (61 R302): three that pairwise may, and are never
reported all, are reported as one of the permitted pairs with bit 11, which is set whenever `EAR[E]` = 0
(10 R42, notes/assumptions/19.md). -/
def State.permittedBits (s : State) (bits : BitVec 32) : BitVec 32 :=
  if bits = dsiProtection ||| dsiUnsupported ||| dsiExternal then
    (if s.freeBit .dsiPair 0 then dsiProtection else dsiUnsupported) ||| dsiExternal
  else bits

/-- What a DSI exception reports, and the number of leading bytes that may have been accessed. -/
structure DataFault where
  dsisr : BitVec 32
  dar : Word
  reach : Nat
deriving DecidableEq, Repr

/-- The access moves one double word; a multiple or string moves words, whatever its length. -/
def Access.doubleWord (a : Access) : Bool :=
  match a.cls with
  | .int | .fp | .reserve => a.len == 8
  | _ => false

/-- The DAR (61 R303, 92 D28): the aligned word or double word of the effective address for a DABR
match, the effective address when external control is disabled, else the first byte at fault. -/
def State.faultDar (s : State) (a : Access) (bits : BitVec 32) (brk : Bool) (first : Nat) : Word :=
  if brk then (if a.doubleWord then a.ea &&& ~~~7 else a.ea &&& ~~~3)
  else if bits &&& dsiExternal != 0 then a.ea
  else s.byteEa a first

/-- The DSI an access raises, if any (41 R140 step 6). -/
def State.dataFault (s : State) (a : Access) : Option DataFault :=
  let first := s.firstFault a
  let located := match first with
    | some i => conditionBits s.cfg a.cls (s.byteXlate a i)
    | none => 0
  let bits := located ||| (if a.cls == .external && !earE s.ear then dsiExternal else 0)
  let brk := s.dabrMatch a
  if bits == 0 && !brk then none
  else some
    { dsisr := s.permittedBits bits ||| (if brk then dsiBreakpoint else 0)
        ||| (if a.store then dsiStore else 0)
      dar := s.faultDar a bits brk (first.getD 0)
      reach := if bits &&& dsiDirectStore != 0 then a.len else first.getD a.len }

/-! ## Presence of memory (61 R298) -/

/-- The first byte touched at whose physical address the platform has no memory. -/
def State.firstAbsent (s : State) (a : Access) : Option Nat :=
  (s.touched a).findIdx? fun pa => !memoryAt s.cfg pa

/-! ## Partial execution (20 R71, R76) -/

/-- Byte `i` of the operand may be transferred by an instruction that is then abandoned: it is translated
and permitted, an error of its direct-store interface not preventing transfers already initiated, and
does not lie in memory the instruction is not supported for (20 R71, R76). A floating-point access is not
supported for a direct-store segment where it ends in the alignment exception (61 R311 (e)). -/
def State.transferable (s : State) (a : Access) (i : Nat) : Bool :=
  let r := s.byteXlate a i
  match r with
  | .ok _ _ | .directStoreError _ =>
    !unsupported a.cls (xlateAttrs r)
      && !(a.cls == .fp && s.byteDirect a i && s.alignChoice a != .correct)
  | _ => false

/-- Byte `i` of the operand may have been accessed in memory by an instruction that is then abandoned. -/
def State.accessible (s : State) (a : Access) (i : Nat) : Bool :=
  s.transferable a i && memoryAt s.cfg (s.bytePa a i)

/-- The stores of the bytes `i` of `data` that `keep` selects. -/
def State.keptStores (s : State) (a : Access) (data : List Byte) (keep : Nat → Bool) :
    List (Word × Byte) :=
  (data.zipIdx.filter fun p => keep p.2).map fun p => (s.bytePa a p.2, p.1)

/-- A partially executed store: each accessible byte before the point reached may have been updated; of
a multiple or string, each in the range. -/
def partialStore (a : Access) (data : List Byte) (reach : Nat) (s : State) : State :=
  let limit := if a.cls == .multiple || a.cls == .string then a.len else reach
  let keep i := decide (i < limit) && s.accessible a i && s.freeBit .partialByte i
  { s with mem := writeBytes s.mem (s.keptStores a data keep) }

/-- The four bytes of a word of a multiple or string, between address order and order of significance,
most significant first. The words of a multiple are words in the current byte order (20 R68); a string is
its bytes one by one, the first most significant in either order (41 R174). -/
def State.orderWord (s : State) (a : Access) (bytes : List Byte) : List Byte :=
  if a.cls == .multiple then s.orderBytes bytes else bytes

/-- The register of byte `4 * j` of a multiple or string operand: four bytes from memory, bytes past the
end zero (41 R151, R174). The high-order 32 bits are zero: of a multiple by the rule's zero extension, of a
string PRESUMED, because the rules give its low-order four bytes only (notes/assumptions/44.md). -/
def State.wordAt (s : State) (a : Access) (j : Nat) : Word :=
  ofBytes (s.orderWord a ((List.range 4).map fun k =>
    if 4 * j + k < a.len then Memory.read s.mem (s.bytePa a (4 * j + k)) else 0))

/-- Registers from `rd` on, wrapping from 31 to 0, loaded with the first `count` words of the operand
that `keep` selects; the operand is read in the state `s`. -/
def loadWords (s : State) (a : Access) (rd : Reg) (keep : Nat → Bool) : Nat → State → State
  | 0, t => t
  | j + 1, t =>
    let t := loadWords s a rd keep j t
    if keep j then t.setGpr (rd + BitVec.ofNat 5 j) (s.wordAt a j) else t

/-- The number of registers of a multiple or string operand. -/
def Access.words (a : Access) : Nat := (a.len + 3) / 4

/-- A partially executed load multiple or string: registers whose bytes are all accessible may have been
loaded. -/
def partialWords (a : Access) (rd : Reg) (_reach : Nat) (s : State) : State :=
  let keep j := s.freeBit .partialReg j &&
    (List.range 4).all fun k => decide (a.len ≤ 4 * j + k) || s.accessible a (4 * j + k)
  loadWords s a rd keep a.words s

/-- A partially executed floating-point load: the target register may be altered. -/
def partialFloat (frd : FReg) (_reach : Nat) (s : State) : State :=
  if s.freeBit .partialReg 0 then s.setFpr frd (s.freeWord .partialFpr 0) else s

/-- No partial execution: integer loads, `eciwx`, and the cache instructions but `dcbz`. -/
def partialNone (_reach : Nat) (s : State) : State := s

/-- A partially executed `dcbz`: bytes of the block may have been cleared (61 R304, 93 U25). -/
def partialBlock (a : Access) (reach : Nat) (s : State) : State :=
  let keep (p : Word × Nat) :=
    decide (0 < reach) && s.accessible a 0 && memoryAt s.cfg p.1 && s.freeBit .partialByte p.2
  { s with mem := writeBytes s.mem (((s.block a).zipIdx.filter keep).map fun p => (p.1, 0)) }

/-- A partially executed store conditional: bytes as for any store if the reservation is held, and CR0
undefined (20 R76, 93 U11). -/
def partialCond (a : Access) (data : List Byte) (reach : Nat) (s : State) : State :=
  let t := if s.reservation.isSome then partialStore a data reach s else s
  t.setCr0 ((s.freeWord .cr0 0).setWidth 4)

/-! ## Boundedly-undefined results (93 U2) -/

/-- The stores that the current translation context lets the program perform. -/
def State.permittedStores (s : State) (l : List (Word × Byte)) : List (Word × Byte) :=
  l.filterMap fun p =>
    match s.translate .store (s.maskEa p.1) with
    | .ok pa _ => if memoryAt s.cfg (s.byteAddress pa) then some (s.byteAddress pa, p.2) else none
    | _ => none

/-- Boundedly-undefined results: general registers, CR, XER, the reservation, the floating-point
registers if available, and memory the program may write take free values; the MSR, SRR0 and SRR1 are
unchanged (notes/assumptions/16.md). -/
def boundedlyUndefined (s : State) : State :=
  { s with
    gpr := Vector.ofFn fun i => truncXlen s.cfg (s.freeWord .undefGpr i.val)
    fpr := if msrFP s.context then Vector.ofFn fun i => s.freeWord .undefFpr i.val else s.fpr
    cr := (s.freeWord .undefMisc 0).setWidth 32
    xer := (s.freeWord .undefMisc 1).setWidth 32
    reservation := if s.freeBit .undefMisc 2 then some (s.maskEa (s.freeWord .undefMisc 3)) else none
    mem := writeBytes s.mem (s.permittedStores (Config.freeStores s.draws)) }

/-! ## The procedure -/

/-- On some implementations a translated access may modify SRR0 and SRR1 (10 R36, 70 R362, 93 U7). -/
def State.clobber (translated : Bool) (n : Nat) (s : State) : State :=
  if s.cfg.srrClobber && translated then
    { s with
      srr0 := truncXlen s.cfg (s.freeWord .srr0Clobber n)
      srr1 := truncXlen s.cfg (s.freeWord .srr1Clobber n) }
  else s

/-- The end of a storage instruction that has performed its access (41 R140 steps 7 and 8). -/
def State.finish (s : State) : State := (s.clobber (msrDR s.context) 1).complete

/-- A bus operation found no memory: a machine check where the platform makes it one, with the partial
effects at most, else nothing the spec defines (61 R298, R299, notes/assumptions/36.md). -/
def busError (part : State → State) (s : State) : Result :=
  if s.cfg.mcheckOnAbsent then
    .next (machineCheckAt (msrME s.context) s.cia s.cfg.busErrorLost (part s))
  else .fault .noMemory

/-- `ExecStorage` steps 5 to 8 (41 R140): alignment, DSI, presence of memory, the operation. `part` is
what partial execution may do before the byte given, `body` what the operation does. -/
def perform (a : Access) (part : Nat → State → State) (body : State → State) (s : State) : Result :=
  match s.alignChoice a with
  | .undefined => .next (boundedlyUndefined s).complete
  | .exception => raise (.alignment (s.alignImage a) a.ea) (part (s.boundaryReach a) s)
  | .correct =>
    match s.dataFault a with
    | some f => raise (.dsi f.dsisr f.dar) (part f.reach s)
    | none =>
      match s.firstAbsent a with
      | some i => busError (part i) s
      | none => .next (body s).finish

/-! ## Operands in memory -/

/-- The operand as a number: the bytes in address order, ordered by the byte-order mode (20 R67, R68). An
access to a direct-store segment that reports no error moves the bytes of memory at the translated address
like any other: DESIGN CHOICE, because the spec does not say what it does (91 N28,
notes/assumptions/45.md). -/
def State.operand (s : State) (a : Access) : Word :=
  ofBytes (s.orderBytes ((List.range a.len).map fun i => Memory.read s.mem (s.bytePa a i)))

/-- The bytes of a value in address order. -/
def State.dataBytes (s : State) (n : Nat) (v : Word) : List Byte := s.orderBytes (toBytes n v)

/-- The bytes stored one after another from byte 0 of the operand; in a direct-store segment too
(notes/assumptions/45.md). -/
def storeBytes (a : Access) (data : List Byte) (s : State) : State :=
  { s with mem := writeBytes s.mem (s.keptStores a data fun _ => true) }

/-- The bytes of a store multiple or string in address order: the low-order four of each register,
registers from `rs` on, wrapping from 31 to 0 (41 R152, R176); ordered as `orderWord` orders those of a
load. -/
def State.wordBytes (s : State) (a : Access) (rs : Reg) : List Byte :=
  (List.range a.len).map fun i =>
    let place := if a.cls == .multiple && msrLE s.context then i % 4 else 3 - i % 4
    (s.readGpr (rs + BitVec.ofNat 5 (i / 4)) >>> (8 * place)).setWidth 8

/-- The `n` low-order bytes of a value in reverse order (41 R180 to R183). -/
def byteReverse (n : Nat) (v : Word) : Word := ofBytes (toBytes n v).reverse

/-- Sign extension of the low-order half word. -/
def signHalf (v : Word) : Word := (v.setWidth 16).signExtend 64

/-- Sign extension of the low-order word. -/
def signWord (v : Word) : Word := (v.setWidth 32).signExtend 64

end Sys2Proof.Machine
end

