-- ==== Sys2Proof/Machine/Boundary.lean ====
section
/-! DEFINITION. What a step does around the instruction (60_exceptions.md R263): the environment's moves,
the exceptions of an instruction boundary, the fetch, tracing, and time. -/

namespace Sys2Proof.Machine

/-! ## The environment (70 R373, R374) -/

/-- The MSR after a hard reset (10 R55): `IP` is `RESET_IP`, `SF` is 1, `LE` equals `ILE`; `ILE`, `ME`,
`ISF` and the reserved bits are unspecified; every other bit is 0. -/
def hardResetMsr (c : Config) (free : Word) : Word :=
  let kept : Word := free &&& ~~~0x0004EF73
  let low : Word := kept ||| ((kept >>> 16) &&& 1) ||| (if c.resetIp then 0x40 else 0)
  if c.is64 then low ||| maskSF else low32 low

/-- A hard reset (10 R55, 70 R352, R353): what R55 leaves unspecified is free, memory among it; the
inputs' levels and requests stay as the environment left them (notes/assumptions/7.md). -/
def hardReset (s : State) : State :=
  let misc n := s.freeWord .resetMisc n
  { s with
    gpr := Vector.ofFn fun i => truncXlen s.cfg (s.freeWord .resetGpr i.val)
    fpr := Vector.ofFn fun i => s.freeWord .resetFpr i.val
    nia := vectorBase s.cfg s.cfg.resetIp + 0x100
    cia := truncXlen s.cfg (misc 0) &&& ~~~3
    msr := hardResetMsr s.cfg (misc 1)
    window := []
    srr0 := truncXlen s.cfg (misc 2)
    srr1 := truncXlen s.cfg (misc 3)
    dsisr := (misc 4).setWidth 32
    dar := truncXlen s.cfg (misc 5)
    dec := (misc 6).setWidth 32
    decPending := s.freeBit .resetMisc 7
    cr := (misc 8).setWidth 32
    xer := (misc 9).setWidth 32
    lr := truncXlen s.cfg (misc 10)
    ctr := truncXlen s.cfg (misc 11)
    fex := s.freeBit .resetMisc 12
    ear := (misc 13).setWidth 32
    dabr := truncXlen s.cfg (misc 14)
    reservation :=
      if s.freeBit .resetMisc 15 then some (truncXlen s.cfg (misc 16)) else none
    checkstop := false
    mem := writeBytes s.mem (Config.freeStores s.draws)
    draws := s.draws + 1 }

/-- One move of the environment. A request that finds one of its kind not yet taken joins it, and state is
lost where either lost it: DESIGN CHOICE, because the spec does not say how the two `state_lost` bits
combine (10 R50, 60 R245, notes/assumptions/41.md). -/
def applyMove (s : State) : EnvMove → State
  | .setExternal level => { s with extSignal := level }
  | .requestSystemReset lost =>
    { s with sresetReq := true, sresetLost := lost || (s.sresetReq && s.sresetLost) }
  | .requestMachineCheck lost =>
    { s with mcheckReq := true, mcheckLost := lost || (s.mcheckReq && s.mcheckLost) }
  | .setFex value => { s with fex := value }
  | .hardReset => hardReset s

/-- Moves in order. -/
def applyMoves : List EnvMove → State → State
  | [], s => s
  | m :: rest, s => applyMoves rest (applyMove s m)

/-- The environment's moves before this step, taken off the schedule; the step begins. -/
def beginStep (s : State) : State :=
  match s.env with
  | [] => { s with taken := false }
  | moves :: rest => applyMoves moves { s with env := rest, taken := false }

/-! ## The exceptions of an instruction boundary (60 R263 steps 1 to 5) -/

/-- The floating-point enabled exception is pending and enabled under the MSR value `m` (10 R52). -/
def floatPending (m : Word) (s : State) : Bool := s.fex && (msrFE0 m || msrFE1 m)

/-- The first of steps 1 to 5 whose condition holds under the MSR value `m`: system reset, machine check,
floating-point enabled, external, decrementer. -/
def boundaryExceptionIn (m : Word) (s : State) : Option State :=
  if s.sresetReq then some (takeException (.systemReset s.sresetLost) s.nia s)
  else if s.mcheckReq then some (machineCheckAt (msrME m) s.nia s.mcheckLost s)
  else if floatPending m s then some (takeException (.program .fpEnabled true) s.nia s)
  else if msrEE m && s.extSignal then some (takeException .external s.nia s)
  else if msrEE m && s.decPending then some (takeException .decrementer s.nia s)
  else none

/-- `FE0` and `FE1` of the MSR (10 R29). -/
def maskFE : Word := 0x900

/-- The exception of this boundary, under the MSR value in force (40 R114). An entry is context
synchronizing (60 R238), so that where one is due the floating-point exception that the new `FE0` and `FE1`
enable is not delayed past it: both count beside those in force, and it goes first by its priority (70 R365,
R366, notes/assumptions/11.md). -/
def boundaryException (s : State) : Option State :=
  if (boundaryExceptionIn s.context s).isNone then none
  else boundaryExceptionIn (s.context ||| (s.msr &&& maskFE)) s

/-- Reduced power mode: no instruction is fetched (61 R347). -/
def asleep (s : State) : Bool := s.cfg.hasPow && msrPOW s.context

/-! ## Fetch (60 R263 step 6, 61 R305, R306) -/

/-- What a fetch finds. -/
inductive Fetched where
  | word (w : InstWord)
  | isi (cause : IsiCause)
  | noMemory
deriving DecidableEq, Repr

/-- Instructions may not be fetched from memory with these attributes (61 R305 (b), (c), (d)). -/
def fetchForbidden (attrs : Attrs) : Bool :=
  attrs.noExecute || attrs.guarded || attrs.directStore

/-- The ISI cause of a failed translation, in the order of 92 D29; none where the fetch may proceed. -/
def isiCause (c : Config) : XlateResult → Option IsiCause
  | .segmentFail => some (if c.is64 then .segmentFail else .noTranslation)
  | .noTranslation => some .noTranslation
  | .directStoreError _ => some .noFetch
  | .protection attrs => some (if fetchForbidden attrs then .noFetch else .protection)
  | .ok _ attrs => if fetchForbidden attrs then some .noFetch else none

/-- The physical addresses of the bytes of the instruction word at a physical address. -/
def State.fetchBytes (s : State) (pa : Word) : List Word :=
  (List.range 4).map fun i => s.byteAddress (pa + BitVec.ofNat 64 i)

/-- The instruction word at a physical address in the current byte order (20 R67, R68). -/
def State.wordAtPa (s : State) (pa : Word) : InstWord :=
  (ofBytes (s.orderBytes ((s.fetchBytes pa).map (Memory.read s.mem)))).setWidth 32

/-- The fetch at CIA, translated once (notes/assumptions/33.md). -/
def State.fetch (s : State) : Fetched :=
  let r := s.translate .fetch s.cia
  match isiCause s.cfg r with
  | some cause => .isi cause
  | none =>
    if (s.fetchBytes (xlatePa r)).all (memoryAt s.cfg) then .word (s.wordAtPa (xlatePa r))
    else .noMemory

/-! ## Tracing and time (60 R263 steps 9 and 10) -/

/-- The trace check after an instruction: `se` and `be` as they were when it began (61 R335, R336); an
instruction that took an exception is not traced. After `mtmsr` and `mtmsrd` an enabled floating-point
exception is taken instead: group D of 60 R256 (40 R114) ranks it above trace, and the order of 60 R263,
derived from that rule, is read with it (DEDUCED, notes/assumptions/46.md). -/
def traceAfter (i : Instr) (se be : Bool) (t : State) : State :=
  if t.cfg.hasTrace && i.traceable && !t.taken && !t.checkstop && (se || (be && i.isBranch)) then
    if i.movesToMsr && (floatPending t.context t || floatPending t.msr t) then
      takeException (.program .fpEnabled true) t.nia t
    else takeException .trace t.nia t
  else t

/-- The decrementer counts once every `TICK` completed steps (61 R329). -/
def countDown (s : State) : State :=
  if s.tickCount + 1 < s.cfg.tick then { s with tickCount := s.tickCount + 1 }
  else { (s.setDec (s.dec - 1)) with tickCount := 0 }

/-- Step 10: time advances, except in a step that ended in checkstop; the draw counter advances. -/
def advance (s : State) : State :=
  if s.checkstop then s else { (countDown s) with draws := s.draws + 1 }

/-- The instruction begins: CIA is NIA in the current mode. -/
def beginInstruction (s : State) : State := { s with cia := s.maskEa s.nia }

/-- The instruction at NIA is execution synchronizing and not context synchronizing (60 R241, R243). -/
def nextSynchronizes (s : State) : Bool :=
  match (beginInstruction s).fetch with
  | .word w =>
    match decode (bytesOfWord w) with
    | .ok (i, _) => i == .sync || i.movesToMsr
    | .error _ => false
  | _ => false

/-- What becomes of the instruction at this boundary, which the state `s` would leave in `t`, while an
`mtmsr` window is open. A pending exception that the new MSR enables is taken no later than the next
context-synchronizing operation (40 R114, 70 R365), a floating-point one no later than the next
synchronizing event (61 R318 (c)), and none is lost to a later `mtmsr` that clears `EE`: it is taken in
place of an instruction that would close the window, synchronize without it, or clear `EE`, SRR0 addressing
that instruction (notes/assumptions/11.md). -/
def settle (s t : State) : State :=
  if s.window = [] then t
  else if t.window = [] || (floatPending s.msr s && nextSynchronizes s)
      || (msrEE s.msr && !msrEE t.msr) then
    (boundaryExceptionIn s.msr s).getD t
  else t

/-- The bytes of a word as the fetch at a physical address reads them. -/
def State.wordStores (s : State) (pa : Word) (w : InstWord) : List (Word × Byte) :=
  (s.fetchBytes pa).zip (s.orderBytes (bytesOfWord w))

end Sys2Proof.Machine
end

