-- ==== Sys2Proof/Machine/FloatFormat.lean ====
section
/-! DEFINITION. The conversions between single and double format that `lfs` and `stfs` name and do not
define (41 R153, R157, 42 R221): the family's, PRESUMED (notes/assumptions/32.md). -/

namespace Sys2Proof.Machine

/-- `DoubleOfSingle`: a denormalized number is normalized, every other value keeps its fields, the
exponent widened. -/
def doubleOfSingle (w : BitVec 32) : Word :=
  let sign : BitVec 1 := w.extractLsb' 31 1
  let expo : BitVec 8 := w.extractLsb' 23 8
  let frac : BitVec 23 := w.extractLsb' 0 23
  if expo = 0 ∧ frac ≠ 0 then
    let top := Nat.log2 frac.toNat
    sign ++ BitVec.ofNat 11 (874 + top) ++ BitVec.ofNat 52 (frac.toNat <<< (52 - top))
  else
    let fill : BitVec 3 :=
      if expo.getMsbD 0 then (if expo = 0xFF then 7 else 0) else (if expo = 0 then 0 else 7)
    w.extractLsb' 30 2 ++ fill ++ w.extractLsb' 0 30 ++ (0 : BitVec 29)

/-- `SingleOfDouble` where the value, rounded toward zero, is a zero, a normal or denormal number, an
infinity or a NaN of the single format; elsewhere no result is stated. -/
def singleOfDouble? (v : Word) : Option (BitVec 32) :=
  let expo := (v.extractLsb' 52 11).toNat
  let kept : BitVec 32 := v.extractLsb' 62 2 ++ v.extractLsb' 29 30
  if v.extractLsb' 0 63 = 0 then some kept
  else if expo = 2047 then some kept
  else if 897 ≤ expo ∧ expo ≤ 1150 then some kept
  else if 874 ≤ expo ∧ expo ≤ 896 then
    let mantissa := 2 ^ 52 + (v.extractLsb' 0 52).toNat
    some (v.extractLsb' 63 1 ++ (0 : BitVec 8) ++ BitVec.ofNat 23 (mantissa >>> (29 + (897 - expo))))
  else none

/-- `SingleOfDouble`, with a free value where no result is stated (notes/assumptions/32.md). -/
def State.singleOfDouble (s : State) (v : Word) : BitVec 32 :=
  (singleOfDouble? v).getD ((s.freeWord .single 0).setWidth 32)

end Sys2Proof.Machine
end

