-- ==== Sys2Proof/Machine/Transfer.lean ====
section
/-! DEFINITION. The operations the storage instructions share, one for each class of 41 R140. Each takes
the instruction (for the form and the DSISR image), its effective address, and what differs within the
class. -/

namespace Sys2Proof.Machine

/-- The access of an elementary integer load or store. -/
def intAccess (i : Instr) (store : Bool) (n : Nat) (ea : Word) : Access :=
  { instr := i, cls := .int, store := store, ea := ea, len := n }

/-- The access of a floating-point load or store. -/
def floatAccess (i : Instr) (store : Bool) (n : Nat) (ea : Word) : Access :=
  { instr := i, cls := .fp, store := store, ea := ea, len := n }

/-- The access of a load or store multiple: words from register `r` to 31 (41 R151, R152). -/
def multipleAccess (i : Instr) (store : Bool) (r : Reg) (ea : Word) : Access :=
  { instr := i, cls := .multiple, store := store, ea := ea, len := 4 * (32 - r.toNat) }

/-- The access of a load or store string. -/
def stringAccess (i : Instr) (store : Bool) (n : Nat) (ea : Word) : Access :=
  { instr := i, cls := .string, store := store, ea := ea, len := n }

/-- The access of a load or store with reservation. -/
def reserveAccess (i : Instr) (store : Bool) (n : Nat) (ea : Word) : Access :=
  { instr := i, cls := .reserve, store := store, ea := ea, len := n }

/-- The access of an external control instruction. -/
def externalAccess (i : Instr) (store : Bool) (ea : Word) : Access :=
  { instr := i, cls := .external, store := store, ea := ea, len := 4 }

/-- The access of `dcbz`, treated as a store. -/
def zeroAccess (i : Instr) (ea : Word) : Access :=
  { instr := i, cls := .dcbz, store := true, ea := ea, len := 1 }

/-- The access of another cache instruction; `dcbi` is treated as a store (61 R302). -/
def cacheAccess (i : Instr) (store : Bool) (ea : Word) : Access :=
  { instr := i, cls := .cache, store := store, ea := ea, len := 1 }

/-- An integer load: the operand, extended or reversed by `conv`, to the target; the base register of an
update form takes the effective address. -/
def loadInt (i : Instr) (n : Nat) (conv : Word → Word) (rd : Reg) (base : Option Reg) (ea : Word)
    (s : State) : Result :=
  whenAdmitted i s fun s =>
    let a := intAccess i false n ea
    perform a partialNone (fun s => (s.setGpr rd (conv (s.operand a))).updateBase base ea) s

/-- An integer store of the `n` low-order bytes of a value. -/
def storeInt (i : Instr) (n : Nat) (v : Word) (base : Option Reg) (ea : Word) (s : State) : Result :=
  whenAdmitted i s fun s =>
    let a := intAccess i true n ea
    let data := s.dataBytes n v
    perform a (partialStore a data) (fun s => (storeBytes a data s).updateBase base ea) s

/-- A load multiple. -/
def loadMultiple (i : Instr) (rd : Reg) (ea : Word) (s : State) : Result :=
  whenAdmitted i s fun s =>
    let a := multipleAccess i false rd ea
    perform a (partialWords a rd) (fun s => loadWords s a rd (fun _ => true) a.words s) s

/-- A store multiple. -/
def storeMultiple (i : Instr) (rs : Reg) (ea : Word) (s : State) : Result :=
  whenAdmitted i s fun s =>
    let a := multipleAccess i true rs ea
    let data := s.wordBytes a rs
    perform a (partialStore a data) (storeBytes a data) s

/-- A load string of `n` bytes; of zero bytes, nothing (41 R140 step 4). -/
def loadString (i : Instr) (rd : Reg) (n : Nat) (ea : Word) (s : State) : Result :=
  whenAdmitted i s fun s =>
    if n = 0 then .next s.complete
    else
      let a := stringAccess i false n ea
      perform a (partialWords a rd) (fun s => loadWords s a rd (fun _ => true) a.words s) s

/-- A store string of `n` bytes; of zero bytes, nothing (41 R140 step 4). -/
def storeString (i : Instr) (rs : Reg) (n : Nat) (ea : Word) (s : State) : Result :=
  whenAdmitted i s fun s =>
    if n = 0 then .next s.complete
    else
      let a := stringAccess i true n ea
      let data := s.wordBytes a rs
      perform a (partialStore a data) (storeBytes a data) s

/-- A floating-point load. -/
def loadFloat (i : Instr) (n : Nat) (conv : Word → Word) (frd : FReg) (base : Option Reg) (ea : Word)
    (s : State) : Result :=
  whenAdmitted i s fun s =>
    let a := floatAccess i false n ea
    perform a (partialFloat frd) (fun s => (s.setFpr frd (conv (s.operand a))).updateBase base ea) s

/-- A floating-point store of the `n` low-order bytes of a value. -/
def storeFloat (i : Instr) (n : Nat) (v : Word) (base : Option Reg) (ea : Word) (s : State) : Result :=
  whenAdmitted i s fun s =>
    let a := floatAccess i true n ea
    let data := s.dataBytes n v
    perform a (partialStore a data) (fun s => (storeBytes a data s).updateBase base ea) s

/-- A load with reservation: an integer load that sets the reservation (41 R166, R167). -/
def loadReserve (i : Instr) (n : Nat) (rd : Reg) (ea : Word) (s : State) : Result :=
  whenAdmitted i s fun s =>
    let a := reserveAccess i false n ea
    perform a partialNone (fun s => { s.setGpr rd (s.operand a) with reservation := some ea }) s

/-- The result of a store conditional: the bytes if the reservation is set, CR0, and no reservation (41
R178, R179). -/
def condStore (a : Access) (data : List Byte) (s : State) : State :=
  let stored := s.reservation.isSome
  let t := if stored then storeBytes a data s else s
  { t.setCr0 (condStoreCr0 stored s.xer) with reservation := none }

/-- A normal store at the access's address would end in a DSI (61 R301). Memory that is write-through and
nothing else gives a normal store none. Where protection or a DABR match holds in write-through memory,
both R300 with 92 D26 (the DSI always) and R301 (a draw) apply, and the draw decides (DESIGN CHOICE); in a
direct-store segment the DSI is taken always, as R300 says of 6.4.6.1.1 (notes/assumptions/29.md). -/
def State.storeFaults (s : State) (a : Access) : Bool :=
  (s.dataFault { a with cls := .int }).isSome && !s.anyDirect a

/-- A store conditional. Without the reservation, an access that a normal store would have ended in a DSI
may complete as a failed store conditional instead (61 R301, 93 U14, notes/assumptions/29.md). -/
def storeConditional (i : Instr) (n : Nat) (v : Word) (ea : Word) (s : State) : Result :=
  whenAdmitted i s fun s =>
    let a := reserveAccess i true n ea
    let data := s.dataBytes n v
    if s.reservation.isNone && s.alignChoice a == .correct && s.storeFaults a
        && s.freeBit .condStoreDsi 0
    then .next (condStore a data s).finish
    else perform a (partialCond a data) (condStore a data) s

/-- `eciwx`: the word the external device delivers, a free value (41 R184). -/
def externalIn (i : Instr) (rd : Reg) (ea : Word) (s : State) : Result :=
  whenAdmitted i s fun s =>
    perform (externalAccess i false ea) partialNone
      (fun s => s.setGpr rd (low32 (s.freeWord .external 0))) s

/-- The bytes of a word that a mask of four bits selects, the others zero. -/
def selectBytes (sent : BitVec 4) (w : BitVec 32) : BitVec 32 :=
  let lane (k : Nat) : BitVec 8 := if sent.getMsbD k then 0xFF else 0
  w &&& (lane 0 ++ lane 1 ++ lane 2 ++ lane 3)

/-- The bytes of `v` that `sent` selects sent to the external device for the translated address. In
little-endian mode too that address is the translation of the effective address itself: DESIGN CHOICE, because
41 R184 and R185 say only the translated EA, and 20 R68 does not say whether its modification (exclusive-or 4
for a word) applies to an address presented to a device (notes/assumptions/48.md). -/
def sendWord (a : Access) (v : Word) (sent : BitVec 4) (s : State) : State :=
  { s with extOut :=
      { pa := xlatePa (s.byteXlate a 0), word := selectBytes sent (v.setWidth 32), sent := sent }
        :: s.extOut }

/-- A partially executed `ecowx`: some bytes of the word may have been sent, as for a store of four bytes
(41 R185, 20 R76); none while `EAR[E]` disables the instruction. -/
def partialSend (a : Access) (v : Word) (reach : Nat) (s : State) : State :=
  let moved (i : Nat) := earE s.ear && decide (i < reach) && s.transferable a i && s.freeBit .partialByte i
  let byte (k : Nat) := BitVec.ofBool (moved (if msrLE s.context then 3 - k else k))
  let sent : BitVec 4 := byte 0 ++ byte 1 ++ byte 2 ++ byte 3
  if sent = 0 then s else sendWord a v sent s

/-- `ecowx`: the word sent to the external device for the translated address (41 R185). -/
def externalOut (i : Instr) (v : Word) (ea : Word) (s : State) : Result :=
  whenAdmitted i s fun s =>
    let a := externalAccess i true ea
    perform a (partialSend a v) (sendWord a v 0b1111) s

/-- `dcbz`: every byte of the block cleared in memory (41 R186). -/
def clearBlock (a : Access) (s : State) : State :=
  { s with mem := writeBytes s.mem ((s.block a).map fun pa => (pa, 0)) }

/-- `dcbz`. -/
def zeroBlock (i : Instr) (ea : Word) (s : State) : Result :=
  whenAdmitted i s fun s =>
    let a := zeroAccess i ea
    perform a (partialBlock a) (clearBlock a) s

/-- The other cache instructions: with no cache in the model, the exceptions alone
(notes/assumptions/30.md). -/
def cacheOp (i : Instr) (store : Bool) (ea : Word) (s : State) : Result :=
  whenAdmitted i s fun s => perform (cacheAccess i store ea) partialNone (fun s => s) s

end Sys2Proof.Machine
end

