-- ==== Sys2Proof/Machine/ByteReverse.lean ====
section
/-! DEFINITION. Byte-reverse loads and stores (41 R180 to R183). -/

namespace Sys2Proof.Machine

/-- `lwbrx`: the word with its bytes reversed (41 R180). -/
def execLwbrx (rd ra rb : Reg) (s : State) : Result :=
  loadInt (.lwbrx rd ra rb) 4 (byteReverse 4) rd none (s.eaX ra rb) s

/-- `stwbrx`: the low-order word with its bytes reversed (41 R181). -/
def execStwbrx (rs ra rb : Reg) (s : State) : Result :=
  storeInt (.stwbrx rs ra rb) 4 (byteReverse 4 (s.readGpr rs)) none (s.eaX ra rb) s

/-- `lhbrx`: the half word with its bytes reversed (41 R182). -/
def execLhbrx (rd ra rb : Reg) (s : State) : Result :=
  loadInt (.lhbrx rd ra rb) 2 (byteReverse 2) rd none (s.eaX ra rb) s

/-- `sthbrx`: the low-order half word with its bytes reversed (41 R183). -/
def execSthbrx (rs ra rb : Reg) (s : State) : Result :=
  storeInt (.sthbrx rs ra rb) 2 (byteReverse 2 (s.readGpr rs)) none (s.eaX ra rb) s

end Sys2Proof.Machine
end

