-- ==== Sys2Proof/Machine/Bytes.lean ====
section
/-! DEFINITION. The byte loads and stores (42 R206 to R213). -/

namespace Sys2Proof.Machine

/-- `lbz`: the byte, zero-extended (42 R206). -/
def execLbz (rd ra : Reg) (d : BitVec 16) (s : State) : Result :=
  loadInt (.lbz rd ra d) 1 id rd none (s.eaD ra d) s

/-- `lbzu`: the byte, zero-extended (42 R207). -/
def execLbzu (rd ra : Reg) (d : BitVec 16) (s : State) : Result :=
  loadInt (.lbzu rd ra d) 1 id rd (some ra) (s.eaD ra d) s

/-- `stb`: the low-order byte (42 R208). -/
def execStb (rs ra : Reg) (d : BitVec 16) (s : State) : Result :=
  storeInt (.stb rs ra d) 1 (s.readGpr rs) none (s.eaD ra d) s

/-- `stbu`: the low-order byte (42 R209). -/
def execStbu (rs ra : Reg) (d : BitVec 16) (s : State) : Result :=
  storeInt (.stbu rs ra d) 1 (s.readGpr rs) (some ra) (s.eaD ra d) s

/-- `lbzx`: the byte, zero-extended (42 R210). -/
def execLbzx (rd ra rb : Reg) (s : State) : Result :=
  loadInt (.lbzx rd ra rb) 1 id rd none (s.eaX ra rb) s

/-- `lbzux`: the byte, zero-extended (42 R211). -/
def execLbzux (rd ra rb : Reg) (s : State) : Result :=
  loadInt (.lbzux rd ra rb) 1 id rd (some ra) (s.eaX ra rb) s

/-- `stbx`: the low-order byte (42 R212). -/
def execStbx (rs ra rb : Reg) (s : State) : Result :=
  storeInt (.stbx rs ra rb) 1 (s.readGpr rs) none (s.eaX ra rb) s

/-- `stbux`: the low-order byte (42 R213). -/
def execStbux (rs ra rb : Reg) (s : State) : Result :=
  storeInt (.stbux rs ra rb) 1 (s.readGpr rs) (some ra) (s.eaX ra rb) s

end Sys2Proof.Machine
end

