-- ==== Sys2Proof/Machine/Cache.lean ====
section
/-! DEFINITION. The cache instructions (41 R186, 42 R214 to R217). -/

namespace Sys2Proof.Machine

/-- `dcbz`: the block cleared (41 R186). -/
def execDcbz (ra rb : Reg) (s : State) : Result :=
  zeroBlock (.dcbz ra rb) (s.eaX ra rb) s

/-- `icbi`: an instruction cache block invalidated (42 R214). -/
def execIcbi (ra rb : Reg) (s : State) : Result :=
  cacheOp (.icbi ra rb) false (s.eaX ra rb) s

/-- `dcbi`: a data cache block invalidated; privileged (42 R215). -/
def execDcbi (ra rb : Reg) (s : State) : Result :=
  cacheOp (.dcbi ra rb) true (s.eaX ra rb) s

/-- `dcbst`: a data cache block stored (42 R216). -/
def execDcbst (ra rb : Reg) (s : State) : Result :=
  cacheOp (.dcbst ra rb) false (s.eaX ra rb) s

/-- `dcbf`: a data cache block flushed (42 R217). -/
def execDcbf (ra rb : Reg) (s : State) : Result :=
  cacheOp (.dcbf ra rb) false (s.eaX ra rb) s

end Sys2Proof.Machine
end

