-- ==== Sys2Proof/Machine/DoubleWord.lean ====
section
/-! DEFINITION. The DS-form and the indexed double-word and algebraic forms (41 R161 to R165, R168 to R173). -/

namespace Sys2Proof.Machine

/-- `ld`: the double word (41 R161). -/
def execLd (rd ra : Reg) (ds : BitVec 14) (s : State) : Result :=
  loadInt (.ld rd ra ds) 8 id rd none (s.eaDS ra ds) s

/-- `ldu`: the double word (41 R162). -/
def execLdu (rd ra : Reg) (ds : BitVec 14) (s : State) : Result :=
  loadInt (.ldu rd ra ds) 8 id rd (some ra) (s.eaDS ra ds) s

/-- `lwa`: the word, sign-extended (41 R163). -/
def execLwa (rd ra : Reg) (ds : BitVec 14) (s : State) : Result :=
  loadInt (.lwa rd ra ds) 4 signWord rd none (s.eaDS ra ds) s

/-- `std`: the double word (41 R164). -/
def execStd (rs ra : Reg) (ds : BitVec 14) (s : State) : Result :=
  storeInt (.std rs ra ds) 8 (s.readGpr rs) none (s.eaDS ra ds) s

/-- `stdu`: the double word (41 R165). -/
def execStdu (rs ra : Reg) (ds : BitVec 14) (s : State) : Result :=
  storeInt (.stdu rs ra ds) 8 (s.readGpr rs) (some ra) (s.eaDS ra ds) s

/-- `ldx`: the double word (41 R168). -/
def execLdx (rd ra rb : Reg) (s : State) : Result :=
  loadInt (.ldx rd ra rb) 8 id rd none (s.eaX ra rb) s

/-- `ldux`: the double word (41 R169). -/
def execLdux (rd ra rb : Reg) (s : State) : Result :=
  loadInt (.ldux rd ra rb) 8 id rd (some ra) (s.eaX ra rb) s

/-- `stdx`: the double word (41 R170). -/
def execStdx (rs ra rb : Reg) (s : State) : Result :=
  storeInt (.stdx rs ra rb) 8 (s.readGpr rs) none (s.eaX ra rb) s

/-- `stdux`: the double word (41 R171). -/
def execStdux (rs ra rb : Reg) (s : State) : Result :=
  storeInt (.stdux rs ra rb) 8 (s.readGpr rs) (some ra) (s.eaX ra rb) s

/-- `lwax`: the word, sign-extended (41 R172). -/
def execLwax (rd ra rb : Reg) (s : State) : Result :=
  loadInt (.lwax rd ra rb) 4 signWord rd none (s.eaX ra rb) s

/-- `lwaux`: the word, sign-extended (41 R173). -/
def execLwaux (rd ra rb : Reg) (s : State) : Result :=
  loadInt (.lwaux rd ra rb) 4 signWord rd (some ra) (s.eaX ra rb) s

end Sys2Proof.Machine
end

