-- ==== Sys2Proof/Machine/ExternalControl.lean ====
section
/-! DEFINITION. External control (41 R184, R185). -/

namespace Sys2Proof.Machine

/-- `eciwx`: the word from the external device (41 R184). -/
def execEciwx (rd ra rb : Reg) (s : State) : Result :=
  externalIn (.eciwx rd ra rb) rd (s.eaX ra rb) s

/-- `ecowx`: the low-order word to the external device (41 R185). -/
def execEcowx (rs ra rb : Reg) (s : State) : Result :=
  externalOut (.ecowx rs ra rb) (s.readGpr rs) (s.eaX ra rb) s

end Sys2Proof.Machine
end

