-- ==== Sys2Proof/Machine/FloatImmediate.lean ====
section
/-! DEFINITION. The floating-point loads and stores of the D-form (41 R153 to R160). -/

namespace Sys2Proof.Machine

/-- `lfs`: the single, in double format (41 R153). -/
def execLfs (frd : FReg) (ra : Reg) (d : BitVec 16) (s : State) : Result :=
  loadFloat (.lfs frd ra d) 4 (fun v => doubleOfSingle (v.setWidth 32)) frd none (s.eaD ra d) s

/-- `lfsu`: the single, in double format (41 R154). -/
def execLfsu (frd : FReg) (ra : Reg) (d : BitVec 16) (s : State) : Result :=
  loadFloat (.lfsu frd ra d) 4 (fun v => doubleOfSingle (v.setWidth 32)) frd (some ra) (s.eaD ra d) s

/-- `lfd`: the double (41 R155). -/
def execLfd (frd : FReg) (ra : Reg) (d : BitVec 16) (s : State) : Result :=
  loadFloat (.lfd frd ra d) 8 id frd none (s.eaD ra d) s

/-- `lfdu`: the double (41 R156). -/
def execLfdu (frd : FReg) (ra : Reg) (d : BitVec 16) (s : State) : Result :=
  loadFloat (.lfdu frd ra d) 8 id frd (some ra) (s.eaD ra d) s

/-- `stfs`: the register in single format (41 R157). -/
def execStfs (frs : FReg) (ra : Reg) (d : BitVec 16) (s : State) : Result :=
  storeFloat (.stfs frs ra d) 4 ((s.singleOfDouble (s.readFpr frs)).setWidth 64) none (s.eaD ra d) s

/-- `stfsu`: the register in single format (41 R158). -/
def execStfsu (frs : FReg) (ra : Reg) (d : BitVec 16) (s : State) : Result :=
  storeFloat (.stfsu frs ra d) 4 ((s.singleOfDouble (s.readFpr frs)).setWidth 64) (some ra) (s.eaD ra d) s

/-- `stfd`: the register (41 R159). -/
def execStfd (frs : FReg) (ra : Reg) (d : BitVec 16) (s : State) : Result :=
  storeFloat (.stfd frs ra d) 8 (s.readFpr frs) none (s.eaD ra d) s

/-- `stfdu`: the register (41 R160). -/
def execStfdu (frs : FReg) (ra : Reg) (d : BitVec 16) (s : State) : Result :=
  storeFloat (.stfdu frs ra d) 8 (s.readFpr frs) (some ra) (s.eaD ra d) s

end Sys2Proof.Machine
end

