-- ==== Sys2Proof/Machine/FloatIndexed.lean ====
section
/-! DEFINITION. The floating-point loads and stores of the X-form (42 R197 to R205). -/

namespace Sys2Proof.Machine

/-- `lfsx`: the single, in double format (42 R197). -/
def execLfsx (frd : FReg) (ra rb : Reg) (s : State) : Result :=
  loadFloat (.lfsx frd ra rb) 4 (fun v => doubleOfSingle (v.setWidth 32)) frd none (s.eaX ra rb) s

/-- `lfsux`: the single, in double format (42 R198). -/
def execLfsux (frd : FReg) (ra rb : Reg) (s : State) : Result :=
  loadFloat (.lfsux frd ra rb) 4 (fun v => doubleOfSingle (v.setWidth 32)) frd (some ra) (s.eaX ra rb) s

/-- `lfdx`: the double (42 R199). -/
def execLfdx (frd : FReg) (ra rb : Reg) (s : State) : Result :=
  loadFloat (.lfdx frd ra rb) 8 id frd none (s.eaX ra rb) s

/-- `lfdux`: the double (42 R200). -/
def execLfdux (frd : FReg) (ra rb : Reg) (s : State) : Result :=
  loadFloat (.lfdux frd ra rb) 8 id frd (some ra) (s.eaX ra rb) s

/-- `stfsx`: the register in single format (42 R201). -/
def execStfsx (frs : FReg) (ra rb : Reg) (s : State) : Result :=
  storeFloat (.stfsx frs ra rb) 4 ((s.singleOfDouble (s.readFpr frs)).setWidth 64) none (s.eaX ra rb) s

/-- `stfsux`: the register in single format (42 R202). -/
def execStfsux (frs : FReg) (ra rb : Reg) (s : State) : Result :=
  storeFloat (.stfsux frs ra rb) 4 ((s.singleOfDouble (s.readFpr frs)).setWidth 64) (some ra) (s.eaX ra rb) s

/-- `stfdx`: the register (42 R203). -/
def execStfdx (frs : FReg) (ra rb : Reg) (s : State) : Result :=
  storeFloat (.stfdx frs ra rb) 8 (s.readFpr frs) none (s.eaX ra rb) s

/-- `stfdux`: the register (42 R204). -/
def execStfdux (frs : FReg) (ra rb : Reg) (s : State) : Result :=
  storeFloat (.stfdux frs ra rb) 8 (s.readFpr frs) (some ra) (s.eaX ra rb) s

/-- `stfiwx`: the low-order word of the register (42 R205). -/
def execStfiwx (frs : FReg) (ra rb : Reg) (s : State) : Result :=
  storeFloat (.stfiwx frs ra rb) 4 (s.readFpr frs) none (s.eaX ra rb) s

end Sys2Proof.Machine
end

