-- ==== Sys2Proof/Machine/IntegerImmediate.lean ====
section
/-! DEFINITION. The integer loads and stores of the D-form (41 R141 to R150). -/

namespace Sys2Proof.Machine

/-- `lwz`: the word, zero-extended (41 R141). -/
def execLwz (rd ra : Reg) (d : BitVec 16) (s : State) : Result :=
  loadInt (.lwz rd ra d) 4 id rd none (s.eaD ra d) s

/-- `lwzu`: the word, zero-extended (41 R142). -/
def execLwzu (rd ra : Reg) (d : BitVec 16) (s : State) : Result :=
  loadInt (.lwzu rd ra d) 4 id rd (some ra) (s.eaD ra d) s

/-- `stw`: the low-order word (41 R143). -/
def execStw (rs ra : Reg) (d : BitVec 16) (s : State) : Result :=
  storeInt (.stw rs ra d) 4 (s.readGpr rs) none (s.eaD ra d) s

/-- `stwu`: the low-order word (41 R144). -/
def execStwu (rs ra : Reg) (d : BitVec 16) (s : State) : Result :=
  storeInt (.stwu rs ra d) 4 (s.readGpr rs) (some ra) (s.eaD ra d) s

/-- `lhz`: the half word, zero-extended (41 R145). -/
def execLhz (rd ra : Reg) (d : BitVec 16) (s : State) : Result :=
  loadInt (.lhz rd ra d) 2 id rd none (s.eaD ra d) s

/-- `lhzu`: the half word, zero-extended (41 R146). -/
def execLhzu (rd ra : Reg) (d : BitVec 16) (s : State) : Result :=
  loadInt (.lhzu rd ra d) 2 id rd (some ra) (s.eaD ra d) s

/-- `lha`: the half word, sign-extended (41 R147). -/
def execLha (rd ra : Reg) (d : BitVec 16) (s : State) : Result :=
  loadInt (.lha rd ra d) 2 signHalf rd none (s.eaD ra d) s

/-- `lhau`: the half word, sign-extended (41 R148). -/
def execLhau (rd ra : Reg) (d : BitVec 16) (s : State) : Result :=
  loadInt (.lhau rd ra d) 2 signHalf rd (some ra) (s.eaD ra d) s

/-- `sth`: the low-order half word (41 R149). -/
def execSth (rs ra : Reg) (d : BitVec 16) (s : State) : Result :=
  storeInt (.sth rs ra d) 2 (s.readGpr rs) none (s.eaD ra d) s

/-- `sthu`: the low-order half word (41 R150). -/
def execSthu (rs ra : Reg) (d : BitVec 16) (s : State) : Result :=
  storeInt (.sthu rs ra d) 2 (s.readGpr rs) (some ra) (s.eaD ra d) s

end Sys2Proof.Machine
end

