-- ==== Sys2Proof/Machine/IntegerIndexed.lean ====
section
/-! DEFINITION. The integer loads and stores of the X-form (42 R187 to R196). -/

namespace Sys2Proof.Machine

/-- `lwzx`: the word, zero-extended (42 R187). -/
def execLwzx (rd ra rb : Reg) (s : State) : Result :=
  loadInt (.lwzx rd ra rb) 4 id rd none (s.eaX ra rb) s

/-- `lwzux`: the word, zero-extended (42 R188). -/
def execLwzux (rd ra rb : Reg) (s : State) : Result :=
  loadInt (.lwzux rd ra rb) 4 id rd (some ra) (s.eaX ra rb) s

/-- `stwx`: the low-order word (42 R189). -/
def execStwx (rs ra rb : Reg) (s : State) : Result :=
  storeInt (.stwx rs ra rb) 4 (s.readGpr rs) none (s.eaX ra rb) s

/-- `stwux`: the low-order word (42 R190). -/
def execStwux (rs ra rb : Reg) (s : State) : Result :=
  storeInt (.stwux rs ra rb) 4 (s.readGpr rs) (some ra) (s.eaX ra rb) s

/-- `lhzx`: the half word, zero-extended (42 R191). -/
def execLhzx (rd ra rb : Reg) (s : State) : Result :=
  loadInt (.lhzx rd ra rb) 2 id rd none (s.eaX ra rb) s

/-- `lhzux`: the half word, zero-extended (42 R192). -/
def execLhzux (rd ra rb : Reg) (s : State) : Result :=
  loadInt (.lhzux rd ra rb) 2 id rd (some ra) (s.eaX ra rb) s

/-- `lhax`: the half word, sign-extended (42 R193). -/
def execLhax (rd ra rb : Reg) (s : State) : Result :=
  loadInt (.lhax rd ra rb) 2 signHalf rd none (s.eaX ra rb) s

/-- `lhaux`: the half word, sign-extended (42 R194). -/
def execLhaux (rd ra rb : Reg) (s : State) : Result :=
  loadInt (.lhaux rd ra rb) 2 signHalf rd (some ra) (s.eaX ra rb) s

/-- `sthx`: the low-order half word (42 R195). -/
def execSthx (rs ra rb : Reg) (s : State) : Result :=
  storeInt (.sthx rs ra rb) 2 (s.readGpr rs) none (s.eaX ra rb) s

/-- `sthux`: the low-order half word (42 R196). -/
def execSthux (rs ra rb : Reg) (s : State) : Result :=
  storeInt (.sthux rs ra rb) 2 (s.readGpr rs) (some ra) (s.eaX ra rb) s

end Sys2Proof.Machine
end

