-- ==== Sys2Proof/Machine/Multiple.lean ====
section
/-! DEFINITION. Load and store multiple (41 R151, R152). -/

namespace Sys2Proof.Machine

/-- `lmw`: registers rD to r31 (41 R151). -/
def execLmw (rd ra : Reg) (d : BitVec 16) (s : State) : Result :=
  loadMultiple (.lmw rd ra d) rd (s.eaD ra d) s

/-- `stmw`: registers rS to r31 (41 R152). -/
def execStmw (rs ra : Reg) (d : BitVec 16) (s : State) : Result :=
  storeMultiple (.stmw rs ra d) rs (s.eaD ra d) s

end Sys2Proof.Machine
end

