-- ==== Sys2Proof/Machine/Reservation.lean ====
section
/-! DEFINITION. Loads and stores with reservation (41 R166, R167, R178, R179). -/

namespace Sys2Proof.Machine

/-- `lwarx`: the word, with the reservation set (41 R166). -/
def execLwarx (rd ra rb : Reg) (s : State) : Result :=
  loadReserve (.lwarx rd ra rb) 4 rd (s.eaX ra rb) s

/-- `ldarx`: the double word, with the reservation set (41 R167). -/
def execLdarx (rd ra rb : Reg) (s : State) : Result :=
  loadReserve (.ldarx rd ra rb) 8 rd (s.eaX ra rb) s

/-- `stwcx.`: the low-order word, if the reservation is set (41 R178). -/
def execStwcxDot (rs ra rb : Reg) (s : State) : Result :=
  storeConditional (.stwcxDot rs ra rb) 4 (s.readGpr rs) (s.eaX ra rb) s

/-- `stdcx.`: the double word, if the reservation is set (41 R179). -/
def execStdcxDot (rs ra rb : Reg) (s : State) : Result :=
  storeConditional (.stdcxDot rs ra rb) 8 (s.readGpr rs) (s.eaX ra rb) s

end Sys2Proof.Machine
end

