-- ==== Sys2Proof/Machine/Strings.lean ====
section
/-! DEFINITION. Load and store string (41 R174 to R177). -/

namespace Sys2Proof.Machine

/-- `lswx`: as many bytes as the XER counts; illegal where a base register is among those loaded (61 R319) (41 R174). -/
def execLswx (rd ra rb : Reg) (s : State) : Result :=
  if stringFormValid rd ra rb (xerCount s.xer) then
    loadString (.lswx rd ra rb) rd (xerCount s.xer) (s.eaX ra rb) s
  else raise (.program .illegal false) s

/-- `lswi`: NB bytes (41 R175). -/
def execLswi (rd ra : Reg) (nb : BitVec 5) (s : State) : Result :=
  loadString (.lswi rd ra nb) rd (immediateCount nb) (s.eaBase ra) s

/-- `stswx`: as many bytes as the XER counts (41 R176). -/
def execStswx (rs ra rb : Reg) (s : State) : Result :=
  storeString (.stswx rs ra rb) rs (xerCount s.xer) (s.eaX ra rb) s

/-- `stswi`: NB bytes (41 R177). -/
def execStswi (rs ra : Reg) (nb : BitVec 5) (s : State) : Result :=
  storeString (.stswi rs ra nb) rs (immediateCount nb) (s.eaBase ra) s

end Sys2Proof.Machine
end

