-- ==== Sys2Proof/Machine/System.lean ====
section
/-! DEFINITION. The system instructions (40_system_instructions.md R110 to R126). -/

namespace Sys2Proof.Machine

/-! ## Traps -/

/-- A trap instruction: the trap exception when a condition named by TO holds (40 R123). -/
def trapOn (i : Instr) (cond : TrapTo) (x y : Word) (s : State) : Result :=
  whenAdmitted i s fun s =>
    if trapCond cond x y then raise (.program .trap false) s else .next s.complete

/-- `tdi` (40 R122). -/
def execTdi (cond : TrapTo) (ra : Reg) (simm : BitVec 16) (s : State) : Result :=
  trapOn (.tdi cond ra simm) cond (s.readGpr ra) (immediateOperand simm) s

/-- `twi` (40 R121). -/
def execTwi (cond : TrapTo) (ra : Reg) (simm : BitVec 16) (s : State) : Result :=
  trapOn (.twi cond ra simm) cond (wordOperand (s.readGpr ra)) (immediateOperand simm) s

/-- `tw` (40 R119). -/
def execTw (cond : TrapTo) (ra rb : Reg) (s : State) : Result :=
  trapOn (.tw cond ra rb) cond (wordOperand (s.readGpr ra)) (wordOperand (s.readGpr rb)) s

/-- `td` (40 R120). -/
def execTd (cond : TrapTo) (ra rb : Reg) (s : State) : Result :=
  trapOn (.td cond ra rb) cond (s.readGpr ra) (s.readGpr rb) s

/-! ## System call, return, synchronization -/

/-- `sc`: the system call exception, SRR0 the address of the next instruction (40 R110, 61 R330). -/
def execSc (s : State) : Result :=
  whenAdmitted .sc s fun s => .next (takeException .systemCall (s.cia + 4) s)

/-- `rfid` (40 R113). -/
def execRfid (s : State) : Result :=
  whenAdmitted .rfid s fun s => .next (returnFrom (returnMask ||| maskSF) s)

/-- `rfi` (40 R111). -/
def execRfi (s : State) : Result := whenAdmitted .rfi s fun s => .next (returnFrom returnMask s)

/-- `isync`: context synchronizing, so every pending choice of `mtmsr` resolves to the new value (40
R125). -/
def execIsync (s : State) : Result :=
  whenAdmitted .isync s fun s => .next { s.complete with window := [] }

/-- `sync`: with one processor and sequential execution it changes no state (40 R124). -/
def execSync (s : State) : Result := whenAdmitted .sync s fun s => .next s.complete

/-! ## The MSR -/

/-- The MSR as a direct read sees it: each reserved bit is the value last written or 0 (10 R33, 93
U1). -/
def State.readMsr (s : State) : Word :=
  let reserved := ~~~(definedMask s.cfg)
  if s.msr &&& reserved = 0 then s.msr
  else s.msr &&& (~~~reserved ||| s.freeWord .msrRead 0)

/-- The MSR replaced by an instruction that is not context synchronizing: where the implementation has a
window, the value replaced stays possible for each bit (40 R114, notes/assumptions/11.md). -/
def State.writeMsr (s : State) (v : Word) : State :=
  { s with msr := v, window := if s.cfg.msrWindow then s.msr :: s.window else [] }

/-- `mfmsr` (40 R116). -/
def execMfmsr (rd : Reg) (s : State) : Result :=
  whenAdmitted (.mfmsr rd) s fun s => .next (s.setGpr rd s.readMsr).complete

/-- `mtmsr`: the low-order 32 bits (40 R114). -/
def execMtmsr (rs : Reg) (s : State) : Result :=
  whenAdmitted (.mtmsr rs) s fun s =>
    .next (s.complete.writeMsr ((s.msr &&& ~~~0xFFFFFFFF) ||| low32 (s.readGpr rs)))

/-- `mtmsrd`: all 64 bits (40 R115). -/
def execMtmsrd (rs : Reg) (s : State) : Result :=
  whenAdmitted (.mtmsrd rs) s fun s => .next (s.complete.writeMsr (s.readGpr rs))

/-! ## Special-purpose registers -/

/-- The special-purpose registers this spec numbers (30 R94). -/
inductive Spr where
  | xer
  | dsisr
  | dar
  | dec
  | srr0
  | srr1
  | ear
  | dabr
deriving DecidableEq, Repr

/-- The register of an SPR number, where the implementation defines one (30 R94, 00 R6;
notes/assumptions/26.md). -/
def sprOf (c : Config) (n : SprNum) : Option Spr :=
  match n.toNat with
  | 1 => some .xer
  | 18 => some .dsisr
  | 19 => some .dar
  | 22 => some .dec
  | 26 => some .srr0
  | 27 => some .srr1
  | 282 => if c.hasExtControl then some .ear else none
  | 1013 => if c.hasDabr then some .dabr else none
  | _ => none

/-- `spr[0]`, the mark of a supervisor-level number: bit 5 of n, of weight 16 (30 R94). -/
def sprSupervisor (n : SprNum) : Bool := n.getLsbD 4

/-- SRR0 as `mfspr` reads it: each of the two reserved low-order bits is the value held or 0 (10 R34, 93
U12). -/
def State.readSrr0 (s : State) : Word :=
  if s.srr0 &&& 3 = 0 then s.srr0 else s.srr0 &&& (~~~3 ||| s.freeWord .srr0Read 0)

/-- What `mfspr` reads (40 R118). -/
def State.readSpr (s : State) : Spr → Word
  | .xer => s.xer.setWidth 64
  | .dsisr => s.dsisr.setWidth 64
  | .dar => s.dar
  | .dec => s.dec.setWidth 64
  | .srr0 => s.readSrr0
  | .srr1 => s.srr1
  | .ear => s.ear.setWidth 64
  | .dabr => s.dabr

/-- What `mtspr` writes (40 R117). -/
def State.writeSpr (s : State) (r : Spr) (v : Word) : State :=
  match r with
  | .xer => { s with xer := v.setWidth 32 }
  | .dsisr => { s with dsisr := v.setWidth 32 }
  | .dar => { s with dar := truncXlen s.cfg v }
  | .dec => s.setDec (v.setWidth 32)
  | .srr0 => { s with srr0 := truncXlen s.cfg v }
  | .srr1 => { s with srr1 := truncXlen s.cfg v }
  | .ear => { s with ear := v.setWidth 32 }
  | .dabr => { s with dabr := truncXlen s.cfg v }

/-- A move to or from an SPR (40 R117, R118, R126, 93 U3): a supervisor-level number, defined or not, in
user mode is a privileged-instruction exception; any other number not defined is illegal. -/
def withSpr (i : Instr) (n : SprNum) (s : State) (k : Spr → State → Result) : Result :=
  whenAdmitted i s fun s =>
    if sprSupervisor n && msrPR s.context then raise (.program .privileged false) s
    else
      match sprOf s.cfg n with
      | some r => k r s
      | none => raise (.program .illegal false) s

/-- `mfspr` (40 R118). -/
def execMfspr (rd : Reg) (spr : SprNum) (s : State) : Result :=
  withSpr (.mfspr rd spr) spr s fun r s => .next (s.setGpr rd (s.readSpr r)).complete

/-- `mtspr` (40 R117). -/
def execMtspr (spr : SprNum) (rs : Reg) (s : State) : Result :=
  withSpr (.mtspr spr rs) spr s fun r s => .next (s.writeSpr r (s.readGpr rs)).complete

end Sys2Proof.Machine
end

