-- ==== Sys2Proof/Machine/Dispatch.lean ====
section
/-! DEFINITION. The dispatch: one meaning for each instruction. -/

namespace Sys2Proof.Machine

def exec (i : Instr) (s : State) : Host.Outcome State Fault Refusal :=
  match i with
  | .tdi cond ra simm => Sys2Proof.Machine.execTdi cond ra simm s
  | .twi cond ra simm => Sys2Proof.Machine.execTwi cond ra simm s
  | .sc => Sys2Proof.Machine.execSc s
  | .rfid => Sys2Proof.Machine.execRfid s
  | .rfi => Sys2Proof.Machine.execRfi s
  | .isync => Sys2Proof.Machine.execIsync s
  | .tw cond ra rb => Sys2Proof.Machine.execTw cond ra rb s
  | .td cond ra rb => Sys2Proof.Machine.execTd cond ra rb s
  | .mfmsr rd => Sys2Proof.Machine.execMfmsr rd s
  | .mtmsr rs => Sys2Proof.Machine.execMtmsr rs s
  | .mtmsrd rs => Sys2Proof.Machine.execMtmsrd rs s
  | .mfspr rd spr => Sys2Proof.Machine.execMfspr rd spr s
  | .mtspr spr rs => Sys2Proof.Machine.execMtspr spr rs s
  | .sync => Sys2Proof.Machine.execSync s
  | .lwz rd ra d => Sys2Proof.Machine.execLwz rd ra d s
  | .lwzu rd ra d => Sys2Proof.Machine.execLwzu rd ra d s
  | .stw rs ra d => Sys2Proof.Machine.execStw rs ra d s
  | .stwu rs ra d => Sys2Proof.Machine.execStwu rs ra d s
  | .lhz rd ra d => Sys2Proof.Machine.execLhz rd ra d s
  | .lhzu rd ra d => Sys2Proof.Machine.execLhzu rd ra d s
  | .lha rd ra d => Sys2Proof.Machine.execLha rd ra d s
  | .lhau rd ra d => Sys2Proof.Machine.execLhau rd ra d s
  | .sth rs ra d => Sys2Proof.Machine.execSth rs ra d s
  | .sthu rs ra d => Sys2Proof.Machine.execSthu rs ra d s
  | .lmw rd ra d => Sys2Proof.Machine.execLmw rd ra d s
  | .stmw rs ra d => Sys2Proof.Machine.execStmw rs ra d s
  | .lfs frd ra d => Sys2Proof.Machine.execLfs frd ra d s
  | .lfsu frd ra d => Sys2Proof.Machine.execLfsu frd ra d s
  | .lfd frd ra d => Sys2Proof.Machine.execLfd frd ra d s
  | .lfdu frd ra d => Sys2Proof.Machine.execLfdu frd ra d s
  | .stfs frs ra d => Sys2Proof.Machine.execStfs frs ra d s
  | .stfsu frs ra d => Sys2Proof.Machine.execStfsu frs ra d s
  | .stfd frs ra d => Sys2Proof.Machine.execStfd frs ra d s
  | .stfdu frs ra d => Sys2Proof.Machine.execStfdu frs ra d s
  | .ld rd ra ds => Sys2Proof.Machine.execLd rd ra ds s
  | .ldu rd ra ds => Sys2Proof.Machine.execLdu rd ra ds s
  | .lwa rd ra ds => Sys2Proof.Machine.execLwa rd ra ds s
  | .std rs ra ds => Sys2Proof.Machine.execStd rs ra ds s
  | .stdu rs ra ds => Sys2Proof.Machine.execStdu rs ra ds s
  | .lwarx rd ra rb => Sys2Proof.Machine.execLwarx rd ra rb s
  | .ldarx rd ra rb => Sys2Proof.Machine.execLdarx rd ra rb s
  | .ldx rd ra rb => Sys2Proof.Machine.execLdx rd ra rb s
  | .ldux rd ra rb => Sys2Proof.Machine.execLdux rd ra rb s
  | .stdx rs ra rb => Sys2Proof.Machine.execStdx rs ra rb s
  | .stdux rs ra rb => Sys2Proof.Machine.execStdux rs ra rb s
  | .lwax rd ra rb => Sys2Proof.Machine.execLwax rd ra rb s
  | .lwaux rd ra rb => Sys2Proof.Machine.execLwaux rd ra rb s
  | .lswx rd ra rb => Sys2Proof.Machine.execLswx rd ra rb s
  | .lswi rd ra nb => Sys2Proof.Machine.execLswi rd ra nb s
  | .stswx rs ra rb => Sys2Proof.Machine.execStswx rs ra rb s
  | .stswi rs ra nb => Sys2Proof.Machine.execStswi rs ra nb s
  | .stwcxDot rs ra rb => Sys2Proof.Machine.execStwcxDot rs ra rb s
  | .stdcxDot rs ra rb => Sys2Proof.Machine.execStdcxDot rs ra rb s
  | .lwbrx rd ra rb => Sys2Proof.Machine.execLwbrx rd ra rb s
  | .stwbrx rs ra rb => Sys2Proof.Machine.execStwbrx rs ra rb s
  | .lhbrx rd ra rb => Sys2Proof.Machine.execLhbrx rd ra rb s
  | .sthbrx rs ra rb => Sys2Proof.Machine.execSthbrx rs ra rb s
  | .eciwx rd ra rb => Sys2Proof.Machine.execEciwx rd ra rb s
  | .ecowx rs ra rb => Sys2Proof.Machine.execEcowx rs ra rb s
  | .dcbz ra rb => Sys2Proof.Machine.execDcbz ra rb s
  | .lwzx rd ra rb => Sys2Proof.Machine.execLwzx rd ra rb s
  | .lwzux rd ra rb => Sys2Proof.Machine.execLwzux rd ra rb s
  | .stwx rs ra rb => Sys2Proof.Machine.execStwx rs ra rb s
  | .stwux rs ra rb => Sys2Proof.Machine.execStwux rs ra rb s
  | .lhzx rd ra rb => Sys2Proof.Machine.execLhzx rd ra rb s
  | .lhzux rd ra rb => Sys2Proof.Machine.execLhzux rd ra rb s
  | .lhax rd ra rb => Sys2Proof.Machine.execLhax rd ra rb s
  | .lhaux rd ra rb => Sys2Proof.Machine.execLhaux rd ra rb s
  | .sthx rs ra rb => Sys2Proof.Machine.execSthx rs ra rb s
  | .sthux rs ra rb => Sys2Proof.Machine.execSthux rs ra rb s
  | .lfsx frd ra rb => Sys2Proof.Machine.execLfsx frd ra rb s
  | .lfsux frd ra rb => Sys2Proof.Machine.execLfsux frd ra rb s
  | .lfdx frd ra rb => Sys2Proof.Machine.execLfdx frd ra rb s
  | .lfdux frd ra rb => Sys2Proof.Machine.execLfdux frd ra rb s
  | .stfsx frs ra rb => Sys2Proof.Machine.execStfsx frs ra rb s
  | .stfsux frs ra rb => Sys2Proof.Machine.execStfsux frs ra rb s
  | .stfdx frs ra rb => Sys2Proof.Machine.execStfdx frs ra rb s
  | .stfdux frs ra rb => Sys2Proof.Machine.execStfdux frs ra rb s
  | .stfiwx frs ra rb => Sys2Proof.Machine.execStfiwx frs ra rb s
  | .lbz rd ra d => Sys2Proof.Machine.execLbz rd ra d s
  | .lbzu rd ra d => Sys2Proof.Machine.execLbzu rd ra d s
  | .stb rs ra d => Sys2Proof.Machine.execStb rs ra d s
  | .stbu rs ra d => Sys2Proof.Machine.execStbu rs ra d s
  | .lbzx rd ra rb => Sys2Proof.Machine.execLbzx rd ra rb s
  | .lbzux rd ra rb => Sys2Proof.Machine.execLbzux rd ra rb s
  | .stbx rs ra rb => Sys2Proof.Machine.execStbx rs ra rb s
  | .stbux rs ra rb => Sys2Proof.Machine.execStbux rs ra rb s
  | .icbi ra rb => Sys2Proof.Machine.execIcbi ra rb s
  | .dcbi ra rb => Sys2Proof.Machine.execDcbi ra rb s
  | .dcbst ra rb => Sys2Proof.Machine.execDcbst ra rb s
  | .dcbf ra rb => Sys2Proof.Machine.execDcbf ra rb s

end Sys2Proof.Machine
end

