-- ==== Sys2Proof/Machine/Step.lean ====
section
/-! DEFINITION. The step (60_exceptions.md R263), a composition of what Machine/Boundary.lean and
Machine/Dispatch.lean define, and the placing of an instruction where the next step fetches it. -/

namespace Sys2Proof.Machine

/-- Steps 7 to 9: the fetched word decoded, executed and traced. A word of no row of the opcode table is
illegal: the model takes the host's base instruction set, which 61 R319 excepts and 91 N3 leaves out, as
empty (DESIGN CHOICE, notes/assumptions/43.md). -/
def runWord (w : InstWord) (s : State) : Result :=
  match decode (bytesOfWord w) with
  | .error _ => raise (.program .illegal false) s
  | .ok (i, _) =>
    match exec i s with
    | .next t => .next (traceAfter i (msrSE s.context) (msrBE s.context) t)
    | .fault f => .fault f
    | .refused r => .refused r

/-- Steps 6 to 9, from the state in which the instruction begins. -/
def runInstruction (s : State) : Result :=
  match s.fetch with
  | .isi cause => raise (.isi cause) s
  | .noMemory => busError (fun t => t) s
  | .word w => runWord w (s.clobber (msrIR s.context) 0)

/-- One step of the machine (60 R263), preceded by the environment's moves of 70 R374. -/
def step (s : State) : Host.Outcome State Fault Refusal :=
  let s := beginStep s
  if s.checkstop then .next s
  else
    match boundaryException s with
    | some t => .next (advance t)
    | none =>
      if asleep s then .next (advance s)
      else
        match runInstruction (beginInstruction s) with
        | .next t => .next (advance (settle s t))
        | .fault f => .fault f
        | .refused r => .refused r

/-- The instruction word stored where the next step fetches its instruction (notes/assumptions/4.md).
Every instruction is one word, so the length given adds nothing. -/
def State.withFetchWord (s : State) (_nbits w : Nat) : State :=
  let t := beginInstruction s
  { s with
    mem := writeBytes s.mem
      (t.wordStores (xlatePa (t.translate .fetch t.cia)) (BitVec.ofNat 32 w)) }

end Sys2Proof.Machine
end

