-- ==== Sys2Proof/Safety.lean ====
section
/-! DEFINITION. The terms in which claims speak of a run: the access each storage instruction makes, when
an instruction is admitted and an access is clear, what a completed instruction leaves, and the
invariant of the machine. -/

namespace Sys2Proof.Machine

/-! ## The access of each storage instruction (41 R141 to R186, 42 R187 to R217) -/

/-- The access of a load or store string; none when its byte count is zero (41 R140 step 4). -/
def nonzeroString (i : Instr) (store : Bool) (n : Nat) (ea : Word) : Option Access :=
  if n = 0 then none else some (stringAccess i store n ea)

/-- The access an instruction makes in a state; none for a system instruction. -/
def accessOf (s : State) : Instr → Option Access
  | .tdi _ _ _ => none
  | .twi _ _ _ => none
  | .sc => none
  | .rfid => none
  | .rfi => none
  | .isync => none
  | .tw _ _ _ => none
  | .td _ _ _ => none
  | .mfmsr _ => none
  | .mtmsr _ => none
  | .mtmsrd _ => none
  | .mfspr _ _ => none
  | .mtspr _ _ => none
  | .sync => none
  | .lwz rd ra d => some (intAccess (.lwz rd ra d) false 4 (s.eaD ra d))
  | .lwzu rd ra d => some (intAccess (.lwzu rd ra d) false 4 (s.eaD ra d))
  | .stw rs ra d => some (intAccess (.stw rs ra d) true 4 (s.eaD ra d))
  | .stwu rs ra d => some (intAccess (.stwu rs ra d) true 4 (s.eaD ra d))
  | .lhz rd ra d => some (intAccess (.lhz rd ra d) false 2 (s.eaD ra d))
  | .lhzu rd ra d => some (intAccess (.lhzu rd ra d) false 2 (s.eaD ra d))
  | .lha rd ra d => some (intAccess (.lha rd ra d) false 2 (s.eaD ra d))
  | .lhau rd ra d => some (intAccess (.lhau rd ra d) false 2 (s.eaD ra d))
  | .sth rs ra d => some (intAccess (.sth rs ra d) true 2 (s.eaD ra d))
  | .sthu rs ra d => some (intAccess (.sthu rs ra d) true 2 (s.eaD ra d))
  | .lmw rd ra d => some (multipleAccess (.lmw rd ra d) false rd (s.eaD ra d))
  | .stmw rs ra d => some (multipleAccess (.stmw rs ra d) true rs (s.eaD ra d))
  | .lfs frd ra d => some (floatAccess (.lfs frd ra d) false 4 (s.eaD ra d))
  | .lfsu frd ra d => some (floatAccess (.lfsu frd ra d) false 4 (s.eaD ra d))
  | .lfd frd ra d => some (floatAccess (.lfd frd ra d) false 8 (s.eaD ra d))
  | .lfdu frd ra d => some (floatAccess (.lfdu frd ra d) false 8 (s.eaD ra d))
  | .stfs frs ra d => some (floatAccess (.stfs frs ra d) true 4 (s.eaD ra d))
  | .stfsu frs ra d => some (floatAccess (.stfsu frs ra d) true 4 (s.eaD ra d))
  | .stfd frs ra d => some (floatAccess (.stfd frs ra d) true 8 (s.eaD ra d))
  | .stfdu frs ra d => some (floatAccess (.stfdu frs ra d) true 8 (s.eaD ra d))
  | .ld rd ra ds => some (intAccess (.ld rd ra ds) false 8 (s.eaDS ra ds))
  | .ldu rd ra ds => some (intAccess (.ldu rd ra ds) false 8 (s.eaDS ra ds))
  | .lwa rd ra ds => some (intAccess (.lwa rd ra ds) false 4 (s.eaDS ra ds))
  | .std rs ra ds => some (intAccess (.std rs ra ds) true 8 (s.eaDS ra ds))
  | .stdu rs ra ds => some (intAccess (.stdu rs ra ds) true 8 (s.eaDS ra ds))
  | .lwarx rd ra rb => some (reserveAccess (.lwarx rd ra rb) false 4 (s.eaX ra rb))
  | .ldarx rd ra rb => some (reserveAccess (.ldarx rd ra rb) false 8 (s.eaX ra rb))
  | .ldx rd ra rb => some (intAccess (.ldx rd ra rb) false 8 (s.eaX ra rb))
  | .ldux rd ra rb => some (intAccess (.ldux rd ra rb) false 8 (s.eaX ra rb))
  | .stdx rs ra rb => some (intAccess (.stdx rs ra rb) true 8 (s.eaX ra rb))
  | .stdux rs ra rb => some (intAccess (.stdux rs ra rb) true 8 (s.eaX ra rb))
  | .lwax rd ra rb => some (intAccess (.lwax rd ra rb) false 4 (s.eaX ra rb))
  | .lwaux rd ra rb => some (intAccess (.lwaux rd ra rb) false 4 (s.eaX ra rb))
  | .lswx rd ra rb => nonzeroString (.lswx rd ra rb) false (xerCount s.xer) (s.eaX ra rb)
  | .lswi rd ra nb => nonzeroString (.lswi rd ra nb) false (immediateCount nb) (s.eaBase ra)
  | .stswx rs ra rb => nonzeroString (.stswx rs ra rb) true (xerCount s.xer) (s.eaX ra rb)
  | .stswi rs ra nb => nonzeroString (.stswi rs ra nb) true (immediateCount nb) (s.eaBase ra)
  | .stwcxDot rs ra rb => some (reserveAccess (.stwcxDot rs ra rb) true 4 (s.eaX ra rb))
  | .stdcxDot rs ra rb => some (reserveAccess (.stdcxDot rs ra rb) true 8 (s.eaX ra rb))
  | .lwbrx rd ra rb => some (intAccess (.lwbrx rd ra rb) false 4 (s.eaX ra rb))
  | .stwbrx rs ra rb => some (intAccess (.stwbrx rs ra rb) true 4 (s.eaX ra rb))
  | .lhbrx rd ra rb => some (intAccess (.lhbrx rd ra rb) false 2 (s.eaX ra rb))
  | .sthbrx rs ra rb => some (intAccess (.sthbrx rs ra rb) true 2 (s.eaX ra rb))
  | .eciwx rd ra rb => some (externalAccess (.eciwx rd ra rb) false (s.eaX ra rb))
  | .ecowx rs ra rb => some (externalAccess (.ecowx rs ra rb) true (s.eaX ra rb))
  | .dcbz ra rb => some (zeroAccess (.dcbz ra rb) (s.eaX ra rb))
  | .lwzx rd ra rb => some (intAccess (.lwzx rd ra rb) false 4 (s.eaX ra rb))
  | .lwzux rd ra rb => some (intAccess (.lwzux rd ra rb) false 4 (s.eaX ra rb))
  | .stwx rs ra rb => some (intAccess (.stwx rs ra rb) true 4 (s.eaX ra rb))
  | .stwux rs ra rb => some (intAccess (.stwux rs ra rb) true 4 (s.eaX ra rb))
  | .lhzx rd ra rb => some (intAccess (.lhzx rd ra rb) false 2 (s.eaX ra rb))
  | .lhzux rd ra rb => some (intAccess (.lhzux rd ra rb) false 2 (s.eaX ra rb))
  | .lhax rd ra rb => some (intAccess (.lhax rd ra rb) false 2 (s.eaX ra rb))
  | .lhaux rd ra rb => some (intAccess (.lhaux rd ra rb) false 2 (s.eaX ra rb))
  | .sthx rs ra rb => some (intAccess (.sthx rs ra rb) true 2 (s.eaX ra rb))
  | .sthux rs ra rb => some (intAccess (.sthux rs ra rb) true 2 (s.eaX ra rb))
  | .lfsx frd ra rb => some (floatAccess (.lfsx frd ra rb) false 4 (s.eaX ra rb))
  | .lfsux frd ra rb => some (floatAccess (.lfsux frd ra rb) false 4 (s.eaX ra rb))
  | .lfdx frd ra rb => some (floatAccess (.lfdx frd ra rb) false 8 (s.eaX ra rb))
  | .lfdux frd ra rb => some (floatAccess (.lfdux frd ra rb) false 8 (s.eaX ra rb))
  | .stfsx frs ra rb => some (floatAccess (.stfsx frs ra rb) true 4 (s.eaX ra rb))
  | .stfsux frs ra rb => some (floatAccess (.stfsux frs ra rb) true 4 (s.eaX ra rb))
  | .stfdx frs ra rb => some (floatAccess (.stfdx frs ra rb) true 8 (s.eaX ra rb))
  | .stfdux frs ra rb => some (floatAccess (.stfdux frs ra rb) true 8 (s.eaX ra rb))
  | .stfiwx frs ra rb => some (floatAccess (.stfiwx frs ra rb) true 4 (s.eaX ra rb))
  | .lbz rd ra d => some (intAccess (.lbz rd ra d) false 1 (s.eaD ra d))
  | .lbzu rd ra d => some (intAccess (.lbzu rd ra d) false 1 (s.eaD ra d))
  | .stb rs ra d => some (intAccess (.stb rs ra d) true 1 (s.eaD ra d))
  | .stbu rs ra d => some (intAccess (.stbu rs ra d) true 1 (s.eaD ra d))
  | .lbzx rd ra rb => some (intAccess (.lbzx rd ra rb) false 1 (s.eaX ra rb))
  | .lbzux rd ra rb => some (intAccess (.lbzux rd ra rb) false 1 (s.eaX ra rb))
  | .stbx rs ra rb => some (intAccess (.stbx rs ra rb) true 1 (s.eaX ra rb))
  | .stbux rs ra rb => some (intAccess (.stbux rs ra rb) true 1 (s.eaX ra rb))
  | .icbi ra rb => some (cacheAccess (.icbi ra rb) false (s.eaX ra rb))
  | .dcbi ra rb => some (cacheAccess (.dcbi ra rb) true (s.eaX ra rb))
  | .dcbst ra rb => some (cacheAccess (.dcbst ra rb) false (s.eaX ra rb))
  | .dcbf ra rb => some (cacheAccess (.dcbf ra rb) false (s.eaX ra rb))

/-! ## When an instruction is executed -/

/-- The form is valid in this state: of `lswx` no base register is among those loaded (61 R319). -/
def formValid (s : State) : Instr → Bool
  | .lswx rd ra rb => stringFormValid rd ra rb (xerCount s.xer)
  | i => i.validForm

/-- The instruction is admitted: provided, of valid form, not privileged in user mode, not
floating-point with `MSR[FP]` = 0 (41 R140 steps 1 and 2). -/
def admitted (s : State) (i : Instr) : Bool :=
  i.provided s.cfg && formValid s i && !(i.privileged && msrPR s.context)
    && (!i.isFloat || msrFP s.context)

/-- The access raises no alignment exception, no DSI, and finds memory: exactly when it is performed (41
R140 steps 5 to 7). -/
def clear (s : State) (a : Access) : Bool :=
  s.alignChoice a == .correct && (s.dataFault a).isNone && (s.firstAbsent a).isNone

/-- The operand has the alignment the architecture defines for it (20 R73): a multiple of its length, of
four for a multiple; a string has none. -/
def Access.naturallyAligned (a : Access) : Bool :=
  match a.cls with
  | .int | .fp | .reserve => a.alignedTo a.len
  | .multiple | .external => a.alignedTo 4
  | .string | .dcbz | .cache => true

/-- A translated access of this state may modify SRR0 and SRR1 (70 R362). -/
def mayClobber (s : State) : Bool := s.cfg.srrClobber && msrDR s.context

/-- Wherever the access of `i` is clear, `i` completes, and the access and the state it leaves meet
`post`. -/
def CompletesAt (s : State) (i : Instr) (post : Access → State → Prop) : Prop :=
  ∀ a, accessOf s i = some a → clear s a = true → ∃ t, exec i s = .next t ∧ post a t

/-! ## What a completed instruction leaves -/

/-- Execution goes on at the next instruction; SRR0 and SRR1 are unchanged, unless a translated access may
modify them. -/
def Resumes (s t : State) : Prop :=
  t.nia = s.maskEa (s.cia + 4) ∧ (mayClobber s = false → t.srr0 = s.srr0 ∧ t.srr1 = s.srr1)

/-- Every general register but those named is unchanged. -/
def GprsBut (s t : State) (named : List Reg) : Prop := ∀ r, r ∉ named → t.readGpr r = s.readGpr r

/-- The instruction loaded `v` into general register `rd` and changed nothing else. -/
def LoadsGpr (s t : State) (rd : Reg) (v : Word) : Prop :=
  Resumes s t ∧ t = { s with gpr := t.gpr, nia := t.nia, srr0 := t.srr0, srr1 := t.srr1 } ∧
    t.readGpr rd = truncXlen s.cfg v ∧ GprsBut s t [rd]

/-- The instruction loaded `v` into `rd`, left the effective address in the update register `ra`, and
changed nothing else. -/
def LoadsGprUpdating (s t : State) (rd : Reg) (v : Word) (ra : Reg) (ea : Word) : Prop :=
  Resumes s t ∧ t = { s with gpr := t.gpr, nia := t.nia, srr0 := t.srr0, srr1 := t.srr1 } ∧
    t.readGpr rd = truncXlen s.cfg v ∧ t.readGpr ra = ea ∧ GprsBut s t [rd, ra]

/-- The instruction loaded `v` into floating-point register `frd` and changed nothing else. -/
def LoadsFpr (s t : State) (frd : FReg) (v : Word) : Prop :=
  Resumes s t ∧ t = { s with fpr := t.fpr, nia := t.nia, srr0 := t.srr0, srr1 := t.srr1 } ∧
    t.readFpr frd = v ∧ ∀ r, r ≠ frd → t.readFpr r = s.readFpr r

/-- As `LoadsFpr`, with the effective address in the update register `ra`. -/
def LoadsFprUpdating (s t : State) (frd : FReg) (v : Word) (ra : Reg) (ea : Word) : Prop :=
  Resumes s t ∧
    t = { s with gpr := t.gpr, fpr := t.fpr, nia := t.nia, srr0 := t.srr0, srr1 := t.srr1 } ∧
    t.readFpr frd = v ∧ (∀ r, r ≠ frd → t.readFpr r = s.readFpr r) ∧
    t.readGpr ra = ea ∧ GprsBut s t [ra]

/-- Byte `i` in address order of the `n` low-order bytes of a value in the current byte order (20 R68). -/
def valueByte (s : State) (n : Nat) (v : Word) (i : Nat) : Byte :=
  (v >>> (8 * (if msrLE s.context then i else n - 1 - i))).setWidth 8

/-- Byte `i` of a store multiple or string from register `rs`: four bytes a register, the most significant
of the low-order four first (41 R152, R176). -/
def registerByte (s : State) (rs : Reg) (i : Nat) : Byte :=
  (s.readGpr (rs + BitVec.ofNat 5 (i / 4)) >>> (8 * (3 - i % 4))).setWidth 8

/-- Memory `m` is that of `s` with byte `i` of the operand stored as `byte i`, where no later byte of the
operand is stored at the same address; every other address reads as before. -/
def StoredAt (s : State) (a : Access) (byte : Nat → Byte) (m : Memory) : Prop :=
  (∀ p, (∀ i, i < a.len → s.bytePa a i ≠ p) → Memory.read m p = Memory.read s.mem p) ∧
    ∀ i, i < a.len → (∀ j, i < j → j < a.len → s.bytePa a j ≠ s.bytePa a i) →
      Memory.read m (s.bytePa a i) = byte i

/-- The instruction stored the bytes and changed nothing else. -/
def StoresBytes (s t : State) (a : Access) (byte : Nat → Byte) : Prop :=
  Resumes s t ∧ t = { s with mem := t.mem, nia := t.nia, srr0 := t.srr0, srr1 := t.srr1 } ∧
    StoredAt s a byte t.mem

/-- As `StoresBytes`, with the effective address in the update register `ra`. -/
def StoresBytesUpdating (s t : State) (a : Access) (byte : Nat → Byte) (ra : Reg) : Prop :=
  Resumes s t ∧
    t = { s with gpr := t.gpr, mem := t.mem, nia := t.nia, srr0 := t.srr0, srr1 := t.srr1 } ∧
    StoredAt s a byte t.mem ∧ t.readGpr ra = a.ea ∧ GprsBut s t [ra]

/-- Word `j` of a multiple or string operand: the bytes of memory at four successive bytes of the operand,
zero past its length, the first most significant; in little-endian mode a multiple's word has its first
byte least significant (20 R68, 41 R151, R174). -/
def registerWord (s : State) (a : Access) (j : Nat) : Word :=
  let place (k : Nat) : Nat := if a.cls = .multiple ∧ msrLE s.context = true then k else 3 - k
  let byte (k : Nat) : Word :=
    if 4 * j + k < a.len then
      (Memory.read s.mem (s.bytePa a (4 * j + k))).setWidth 64 <<< (8 * place k)
    else 0
  byte 0 ||| byte 1 ||| byte 2 ||| byte 3

/-- The instruction loaded the words of a multiple or string operand into the registers from `rd` on,
wrapping from 31 to 0, and changed nothing else. -/
def LoadsWords (s t : State) (a : Access) (rd : Reg) : Prop :=
  Resumes s t ∧ t = { s with gpr := t.gpr, nia := t.nia, srr0 := t.srr0, srr1 := t.srr1 } ∧
    ∀ r, t.readGpr r =
      if (r - rd).toNat < a.words then truncXlen s.cfg (registerWord s a (r - rd).toNat) else s.readGpr r

/-- An exception `e` was taken with SRR0 from `addr` (60 R270 to R275): the registers entry writes, as the
interrupted state `s` determines them. What partial execution (20 R76) may have left in other registers
and memory, `Abandons` says. -/
def TakenFrom (s t : State) (e : Exc) (addr : Word) : Prop :=
  t.srr0 = addressIn s.cfg s.msr addr ∧ t.srr1 = saveImage s.cfg e s.msr ∧
    t.msr = entryMsr s.cfg e s.msr ∧ t.nia = vectorBase s.cfg (msrIP s.context) + e.offset ∧
    t.dsisr = (e.fault?.map Prod.fst).getD s.dsisr ∧ t.dar = (e.fault?.map Prod.snd).getD s.dar ∧
    t.window = [] ∧ t.taken = true

/-- Apart from the registers an exception entry writes, `t` is `s`. -/
def EntryFrame (s t : State) : Prop :=
  t = { s with srr0 := t.srr0, srr1 := t.srr1, msr := t.msr, nia := t.nia, dsisr := t.dsisr,
               dar := t.dar, window := t.window, taken := t.taken, decPending := t.decPending,
               sresetReq := t.sresetReq, mcheckReq := t.mcheckReq }

/-- A partially executed instruction may have written the byte at physical address `p`: a byte of its
operand, of the block for `dcbz`, and none for the other cache instructions, external control, a load, or a
store conditional without the reservation (20 R76). -/
def MayWrite (s : State) (a : Access) (p : Word) : Prop :=
  a.store = true ∧
    match a.cls with
    | .dcbz => p >>> s.cfg.blockLog = xlatePa (s.byteXlate a 0) >>> s.cfg.blockLog
    | .cache | .external => False
    | .reserve => s.reservation.isSome = true ∧ ∃ i, i < a.len ∧ s.bytePa a i = p
    | _ => ∃ i, i < a.len ∧ s.bytePa a i = p

/-- What a storage instruction that an exception ends may have done before it (20 R71, R76): bytes that it may
write; registers of the range a load multiple or string loads; the target of a floating-point load; CR0,
of a store conditional; bytes sent by `ecowx` where `EAR[E]` allows it, some of the low-order word of rS
for the translated address (in little-endian mode too: notes/assumptions/48.md), the others zero. The
update register, the XER, the reservation and everything else are as before, but for what entry writes. -/
def Abandons (s t : State) (a : Access) : Prop :=
  let target : BitVec 5 := (encode a.instr).extractLsb' 21 5
  t = { s with gpr := t.gpr, fpr := t.fpr, cr := t.cr, mem := t.mem, extOut := t.extOut,
               srr0 := t.srr0, srr1 := t.srr1, msr := t.msr, nia := t.nia, dsisr := t.dsisr,
               dar := t.dar, window := t.window, taken := t.taken, mcheckReq := t.mcheckReq,
               checkstop := t.checkstop } ∧
    (∀ r, t.readGpr r = s.readGpr r ∨
      (a.store = false ∧ (a.cls = .multiple ∨ a.cls = .string) ∧ (r - target).toNat < a.words ∧
        t.readGpr r = truncXlen s.cfg (registerWord s a (r - target).toNat))) ∧
    (∀ r, t.readFpr r = s.readFpr r ∨ (a.store = false ∧ a.cls = .fp ∧ r = target)) ∧
    (∀ p, Memory.read t.mem p = Memory.read s.mem p ∨ MayWrite s a p) ∧
    (∀ k, t.cr.getMsbD k = s.cr.getMsbD k ∨ (a.store = true ∧ a.cls = .reserve ∧ k < 4)) ∧
    (t.extOut = s.extOut ∨
      (a.store = true ∧ a.cls = .external ∧ earE s.ear = true ∧
        ∃ d, t.extOut = d :: s.extOut ∧ d.pa = xlatePa (s.byteXlate a 0) ∧ d.sent ≠ 0 ∧
          ∀ k, k < 32 → d.word.getMsbD k =
            (d.sent.getMsbD (k / 8) && ((s.readGpr target).setWidth 32).getMsbD k)))

/-- The context of a handler's first instruction (60 R274, R276): supervisor mode, translation and
floating point off, no maskable exception enabled, tracing off, the byte order of `ILE`. -/
def HandlerMsr (m : Word) : Prop :=
  msrPR m = false ∧ msrEE m = false ∧ msrIR m = false ∧ msrDR m = false ∧ msrFP m = false ∧
    msrRI m = false ∧ msrPOW m = false ∧ msrSE m = false ∧ msrBE m = false ∧ msrFE0 m = false ∧
    msrFE1 m = false ∧ msrLE m = msrILE m

/-- An address of an exception vector of this implementation (20 R61, R62). -/
def IsVector (c : Config) (ip : Bool) (a : Word) : Prop :=
  ∃ e : Exc, a = vectorBase c ip + e.offset

/-! ## The invariant -/

/-- An instruction address: its two low-order bits are zero (10 R46, 20 R74). -/
def wordAligned (a : Word) : Bool := a &&& 3 == 0

/-- The value fits the implementation's registers (10 R20, R34, R38, R45). -/
def fits (c : Config) (v : Word) : Bool := truncXlen c v == v

/-- Every register of `XLEN` bits fits. -/
def registersFit (s : State) : Bool :=
  s.gpr.toList.all (fits s.cfg)
    && [s.nia, s.cia, s.msr, s.srr0, s.srr1, s.dar, s.lr, s.ctr, s.dabr].all (fits s.cfg)
    && s.window.all (fits s.cfg) && s.reservation.toList.all (fits s.cfg)

/-- The invariant of the machine: memory in canonical form, instruction addresses word-aligned, registers
no wider than the implementation. -/
def Inv (s : State) : Prop :=
  s.mem.wf = true ∧ wordAligned s.nia = true ∧ wordAligned s.cia = true ∧ registersFit s = true

/-- No hard reset is among the environment's moves before the next step. -/
def noHardReset (s : State) : Prop := EnvMove.hardReset ∉ s.env.headD []

end Sys2Proof.Machine
end

