-- ==== Sys2Proof/WellFormed.lean ====
section
/-! DEFINITION. Well-formed instructions: the valid forms.

Every operand field of `Instr` has exactly the values its encoding admits, so the only ill-formed
instructions are the invalid forms of 30_encoding.md R100 (c) and 42 R219. An invalid form decodes to
its instruction and raises the illegal-instruction program exception when executed (92 D30). -/

namespace Sys2Proof

/-- The instruction is a valid form of its encoding (`Instr.validForm`). -/
def Instr.wellFormed (i : Instr) : Bool := i.validForm

end Sys2Proof
end

