-- ==== Sys2Proof/Certificates/Slice0/Obligations.lean ====
section
/-! DEFINITION. The statements about the machine, for the provers. Each docstring names the rules of spec/
the statement rests on; a clause that is the model's choice and not the spec's says so. -/

section

open Sys2Proof Sys2Proof.Machine

/-- Seventeen words written out in 95_test_vectors.md section 2 (V10 to V1O) decode to the instruction and
operands listed beside them; the words 44000000 and 4C000065, which differ from sc and rfi in one fixed bit,
are rejected. (95_test_vectors.md section 2; 30_encoding.md R96; 30_encoding.md R98) -/
def Obligations.ListedWordsDecode : Prop :=
  decodeWord 0x44000002 = .ok (.sc) ∧
    decodeWord 0x4C000064 = .ok (.rfi) ∧
    decodeWord 0x4C000024 = .ok (.rfid) ∧
    decodeWord 0x4C00012C = .ok (.isync) ∧
    decodeWord 0x7C0004AC = .ok (.sync) ∧
    decodeWord 0x7C6000A6 = .ok (.mfmsr 3) ∧
    decodeWord 0x7C600124 = .ok (.mtmsr 3) ∧
    decodeWord 0x7C7A03A6 = .ok (.mtspr 26 3) ∧
    decodeWord 0x7C9202A6 = .ok (.mfspr 4 18) ∧
    decodeWord 0x7C75FBA6 = .ok (.mtspr 1013 3) ∧
    decodeWord 0x0D030000 = .ok (.twi 8 3 0) ∧
    decodeWord 0x7C832008 = .ok (.tw 4 3 4) ∧
    decodeWord 0x0883FFFF = .ok (.tdi 4 3 0xFFFF) ∧
    decodeWord 0x80640008 = .ok (.lwz 3 4 8) ∧
    decodeWord 0xE864000A = .ok (.lwa 3 4 2) ∧
    decodeWord 0x7C64292D = .ok (.stwcxDot 3 4 5) ∧
    decodeWord 0x7C042FEC = .ok (.dcbz 4 5) ∧
    decodeWord 0x44000000 = .error .reservedField ∧
    decodeWord 0x4C000065 = .error .reservedField

/-- For every instruction with every value of its operands, and any bytes that follow, decoding the four bytes
of its word gives that instruction and the bytes that follow: no bit of an encoding is dropped and no two
instructions share a word. (30_encoding.md R92; 30_encoding.md R96; 30_encoding.md R98; 30_encoding.md R94) -/
def Obligations.DecodeInvertsEncode : Prop :=
  ∀ (i : Instr) (rest : List Byte), decode (bytesOfWord (encode i) ++ rest) = .ok (i, rest)

/-- If four bytes decode to an instruction, they are the bytes of that instruction's encoding: a word with a
nonzero bit where its row has a zero is not accepted, and each instruction has one word. (30_encoding.md
R96; 30_encoding.md R98; 30_encoding.md R100) -/
def Obligations.EncodeInvertsDecode : Prop :=
  ∀ (w : InstWord) (i : Instr), decodeWord w = .ok i → encode i = w

/-- Let b be the state after the environment's moves. If b is not in checkstop, no boundary exception is due,
the machine is not in reduced power mode, and the word at NIA decodes to a well-formed instruction i, then
the step is exec of i in the state with CIA at NIA (SRR0 and SRR1 free where a translated fetch may modify
them), followed by the trace check with the SE and BE in force when the instruction began and the advance of
time; a fault or refusal of exec is the step's. While an mtmsr window is open the instruction may give way
to a pending exception that must not be delayed past it (settle, log entry 11: AsynchronousExceptions says
when); with no window it never does. (60_exceptions.md R263; 40_system_instructions.md R114;
70_reset_and_hazards.md R365) -/
def Obligations.StepRunsDecodedInstruction : Prop :=
  ∀ (s : State) (w : InstWord) (i : Instr) (rest : List Byte),
    (beginStep s).checkstop = false → boundaryException (beginStep s) = none →
    asleep (beginStep s) = false →
    (beginInstruction (beginStep s)).fetch = .word w → decode (bytesOfWord w) = .ok (i, rest) →
    i.wellFormed = true →
    let b := beginInstruction (beginStep s)
    let c := b.clobber (msrIR b.context) 0
    let stepsTo := fun after : State → State => step s = match exec i c with
      | .next t => .next (advance (after (traceAfter i (msrSE c.context) (msrBE c.context) t)))
      | .fault f => .fault f
      | .refused r => .refused r
    stepsTo (settle (beginStep s)) ∧ ((beginStep s).window = [] → stepsTo fun t => t)

/-- Where a step fetches a word that decodes to no instruction, it takes the program exception with SRR1 bit 44
set and SRR0 the address of the word; memory and the general registers are unchanged. (While an mtmsr window
is open, only where no exception enabled by the new MSR is pending: log entry 11. That a word of no row of
the opcode table is no instruction of the host's base set either is the model's choice: log entry 43.)
(60_exceptions.md R263; 61_each_exception.md R319) -/
def Obligations.UndecodableWordIsIllegal : Prop :=
  ∀ (s : State) (w : InstWord) (r : Reject),
    (beginStep s).checkstop = false → boundaryException (beginStep s) = none →
    ((beginStep s).window = [] ∨ boundaryExceptionIn (beginStep s).msr (beginStep s) = none) →
    asleep (beginStep s) = false →
    (beginInstruction (beginStep s)).fetch = .word w → decode (bytesOfWord w) = .error r →
    ∃ t, step s = .next t ∧ t.srr0 = addressIn s.cfg (beginStep s).msr (beginInstruction (beginStep s)).cia ∧
      t.srr1 &&& 0x783F0000 = 0x00080000 ∧
      t.nia = vectorBase s.cfg (msrIP (beginStep s).context) + 0x700 ∧
      t.msr = entryMsr s.cfg (.program .illegal false) (beginStep s).msr ∧
      t.gpr = (beginStep s).gpr ∧ t.mem = (beginStep s).mem

/-- Let the physical address of the fetch be CIA itself with translation of instruction addresses off, and the
address translation gives with it on, from memory that is not no-execute, guarded or direct-store. Where it
is a multiple of four and the bytes read have memory, the fetch is the word whose bytes, most significant
first, lie at that address and the three after it in big-endian mode, and at that address exclusive-or 4 and
the three after it in little-endian mode. The exclusive-or is what R68 gives from general knowledge, chosen
by decision D15 (log entry 39); how the model writes it byte by byte is log entry 12. (20_memory.md R67;
20_memory.md R68; 60_exceptions.md R263; 92_eei_decisions.md D15) -/
def Obligations.FetchReadsWord : Prop :=
  ∀ s : State,
    let readsAt := fun pa : Word =>
      let p : Word := if msrLE s.context then pa ^^^ 4 else pa
      pa &&& 3 = 0 → memoryAt s.cfg p = true → memoryAt s.cfg (p + 1) = true →
      memoryAt s.cfg (p + 2) = true → memoryAt s.cfg (p + 3) = true →
      s.fetch = .word (wordOfBytes (Memory.read s.mem p) (Memory.read s.mem (p + 1))
        (Memory.read s.mem (p + 2)) (Memory.read s.mem (p + 3)))
    (msrIR s.context = false → readsAt s.cia) ∧
    ∀ pa attrs, s.translate .fetch s.cia = .ok pa attrs →
      attrs.noExecute = false → attrs.guarded = false → attrs.directStore = false → readsAt pa

/-- If the invariant holds (memory in canonical form; NIA and CIA with their two low-order bits zero; every
register of XLEN bits, the MSR window and the reservation with their high half zero on a 32-bit
implementation) and a step answers a next state, the invariant holds of it, and the configuration is the
same. (10_state.md R46; 20_memory.md R74; 10_state.md R20; 10_state.md R45) -/
def Obligations.StepKeepsInvariant : Prop :=
  ∀ s t : State, Inv s → step s = .next t → Inv t ∧ t.cfg = s.cfg

/-- Memory in canonical form, aligned instruction addresses and registers within XLEN hold of State.reset.
(10_state.md R55) -/
def Obligations.ResetHasInvariant : Prop :=
  Inv State.reset

/-- In State.reset checkstop is 0; MSR bits POW, EE, PR, FP, FE0, SE, BE, FE1, IR, DR, RI are 0, SF is 1, LE
equals ILE, IP is RESET_IP; NIA is the vector base of RESET_IP plus 0x100. (The table is the spec's own
decision D13; RESET_IP = 1 and XLEN = 64 are the model's choice, log entry 1.) (10_state.md R55;
92_eei_decisions.md D13) -/
def Obligations.ResetState : Prop :=
  State.reset.checkstop = false ∧ State.reset.cfg = Config.atReset ∧
    HandlerMsr State.reset.msr ∧ msrSF State.reset.msr = true ∧
    msrIP State.reset.msr = State.reset.cfg.resetIp ∧
    State.reset.nia = vectorBase State.reset.cfg State.reset.cfg.resetIp + 0x100

/-- A step first makes the moves scheduled for it, in order: the external signal takes the level given; a system
reset request and a machine check request set their latch, with state lost if this request or one of the
kind not yet taken lost it (how two such bits combine is the model's choice: log entry 41); FPSCR[FEX] takes
the value given; a hard reset leaves, in any state: checkstop 0; MSR bits POW, EE, PR, FP, FE0, SE, BE, FE1,
IR, DR, RI 0; LE equal to ILE; IP equal to RESET_IP; SF 1 on a 64-bit implementation; NIA the vector base of
RESET_IP plus 0x100, and the configuration, schedule, signal and requests as they were (the last three the
model's choice: log entry 7). The values R55 leaves unspecified are free and nothing is said of them. The
moves change nothing else but that the flag of an exception taken is cleared (log entries 6 and 34).
(70_reset_and_hazards.md R373; 70_reset_and_hazards.md R374; 10_state.md R48; 10_state.md R50; 10_state.md
R40; 10_state.md R55; 70_reset_and_hazards.md R351; 92_eei_decisions.md D13) -/
def Obligations.EnvironmentMoves : Prop :=
  ∀ s : State,
    let move := fun (u : State) (m : EnvMove) => match m with
      | .setExternal level => { u with extSignal := level }
      | .requestSystemReset lost =>
        { u with sresetReq := true, sresetLost := lost || (u.sresetReq && u.sresetLost) }
      | .requestMachineCheck lost =>
        { u with mcheckReq := true, mcheckLost := lost || (u.mcheckReq && u.mcheckLost) }
      | .setFex value => { u with fex := value }
      | .hardReset => hardReset u
    (s.env = [] → beginStep s = { s with taken := false }) ∧
    (∀ moves rest, s.env = moves :: rest →
      beginStep s = moves.foldl move { s with env := rest, taken := false }) ∧
    let t := hardReset s
    t.checkstop = false ∧ HandlerMsr t.msr ∧ msrIP t.msr = s.cfg.resetIp ∧
    (s.cfg.is64 = true → msrSF t.msr = true) ∧
    t.nia = vectorBase s.cfg s.cfg.resetIp + 0x100 ∧ t.window = [] ∧ t.cfg = s.cfg ∧
    t.env = s.env ∧ t.extSignal = s.extSignal ∧ t.sresetReq = s.sresetReq ∧
    t.sresetLost = s.sresetLost ∧ t.mcheckReq = s.mcheckReq ∧ t.mcheckLost = s.mcheckLost

/-- For every exception and every MSR: POW, EE, PR, FP, FE0, SE, BE, FE1, IR, DR and RI become 0; ME becomes 0
for machine check and is not altered for the others; ILE, IP, ISF and every bit the table does not name are
not altered; LE becomes the old ILE; on a 64-bit implementation SF becomes 1, or the old ISF where ISF is
implemented. That on a 32-bit implementation the high half of the 64-bit cell is not altered is no row of
the table: it follows from how this model holds a 32-bit MSR (a choice: log entry 10). (60_exceptions.md
R274) -/
def Obligations.EntryMsrBits : Prop :=
  ∀ (c : Config) (e : Exc) (m : Word), let n := entryMsr c e m
    HandlerMsr n ∧ msrILE n = msrILE m ∧ msrLE n = msrILE m ∧ msrIP n = msrIP m ∧
    msrME n = (match e with
      | .machineCheck _ => false
      | _ => msrME m) ∧
    (c.is64 = true → msrSF n = (if c.hasIsf then msrISF m else true)) ∧
    (c.is64 = false → msrSF n = msrSF m) ∧
    ∀ k, k < 64 → k ∉ [0, 45, 48, 49, 50, 51, 52, 53, 54, 55, 58, 59, 62, 63] →
      n.getMsbD k = m.getMsbD k

/-- For every exception and every MSR that fits the implementation, of SRR1 bits 33-36 and 42-47 exactly these
are 1: for ISI bit 42 (segment table search), 33 (no translation), 35 (no-execute, guarded or direct-store)
or 36 (protection); for a program exception bit 43 (floating-point enabled), 44 (illegal), 45 (privileged)
or 46 (trap), and 47 where SRR0 is a later instruction's; none for the others. Bit 62 is 0 for a system
reset or machine check that lost state; bits 0-32 and 37-41 are 0 for ISI; every other bit is the MSR's
where the implementation copies reserved bits or the bit is a defined one, and 0 where it is reserved and
not copied. Choices among what the source permits, all the spec's own (log entry 40): the machine check
image (D24; R295 leaves it to the implementation), the zero information bits of trace (D32) and the high
bits of ISI (D10); which bits count as reserved where trace is absent is the model's (log entry 24).
(60_exceptions.md R272; 60_exceptions.md R273; 61_each_exception.md R291; 61_each_exception.md R295;
61_each_exception.md R306; 61_each_exception.md R317; 92_eei_decisions.md D10; 92_eei_decisions.md D24;
92_eei_decisions.md D32) -/
def Obligations.SavedImageBits : Prop :=
  ∀ (c : Config) (e : Exc) (m : Word), fits c m = true → ∀ k, k < 64 →
    let info : List Nat := match e with
      | .isi .segmentFail => [42]
      | .isi .noTranslation => [33]
      | .isi .noFetch => [35]
      | .isi .protection => [36]
      | .program .fpEnabled later => if later then [43, 47] else [43]
      | .program .illegal later => if later then [44, 47] else [44]
      | .program .privileged later => if later then [45, 47] else [45]
      | .program .trap later => if later then [46, 47] else [46]
      | _ => []
    (saveImage c e m).getMsbD k =
      if (33 ≤ k ∧ k ≤ 36) ∨ (42 ≤ k ∧ k ≤ 47) then decide (k ∈ info)
      else if k = 62 ∧ (e = .systemReset true ∨ e = .machineCheck true) then false
      else if k ≤ 41 ∧ (match e with
        | .isi _ => true
        | _ => false) = true then false
      else m.getMsbD k && (c.copyReserved || (definedMask c).getMsbD k)

/-- For every exception taken in every state: SRR0 is the address given, in the current mode (its high half zero
in 32-bit mode: decision D18, log entry 40); SRR1 the saved image; the MSR the entry MSR; NIA the vector
base of the IP in force plus the exception's offset; DSISR and DAR the exception's values for DSI and
alignment and unchanged for every other; dec_pending is cleared by the decrementer exception alone,
sreset_req by system reset alone, mcheck_req by machine check alone (of the last two decision D22, log entry
40); the mtmsr window closes (log entry 11) and the model's flag of an exception taken is set (log entry
34), both the model's choices; every other field, with the general and floating-point registers, CR, XER,
LR, CTR, FPSCR[FEX], the reservation and memory among them, is unchanged. (60_exceptions.md R270;
60_exceptions.md R271; 92_eei_decisions.md D18; 92_eei_decisions.md D22) -/
def Obligations.EntryEffect : Prop :=
  ∀ (e : Exc) (addr : Word) (s : State), let t := takeException e addr s
    TakenFrom s t e addr ∧ EntryFrame s t ∧
    t.decPending = (if e = .decrementer then false else s.decPending) ∧
    t.sresetReq = (if e = .systemReset true ∨ e = .systemReset false then false else s.sresetReq) ∧
    t.mcheckReq = (if e = .machineCheck true ∨ e = .machineCheck false then false else s.mcheckReq) ∧
    ((∀ dsisr dar, e ≠ .dsi dsisr dar ∧ e ≠ .alignment dsisr dar) →
      t.dsisr = s.dsisr ∧ t.dar = s.dar)

/-- For every exception taken in every state, NIA is the vector base plus the vector offset: by the MSR[IP] in
force (the MSR's own where no mtmsr window is open) the base is 0 with IP = 0, with IP = 1 it is
0xFFFFFFFFFFF00000 on a 64-bit and 0xFFF00000 on a 32-bit implementation; the offsets are 0x100 system
reset, 0x200 machine check, 0x300 DSI, 0x400 ISI, 0x500 external interrupt, 0x600 alignment, 0x700 program,
0x800 floating-point unavailable, 0x900 decrementer, 0xC00 system call, 0xD00 trace, 0xE00 floating-point
assist, each a multiple of 0x100. Entry does not alter IP, and clears IR, so that the address is physical.
That with a window open the base follows the IP in force, where R270 writes the MSR's, is the model's
reading (DEDUCED: log entry 11). (20_memory.md R61; 20_memory.md R62; 60_exceptions.md R270) -/
def Obligations.VectorTable : Prop :=
  ∀ (e : Exc) (addr : Word) (s : State), let t := takeException e addr s
    let base : Word := if msrIP s.context = false then 0
      else if s.cfg.xlen = .w32 then 0x00000000FFF00000 else 0xFFFFFFFFFFF00000
    let offset : Word := match e with
      | .systemReset _ => 0x100
      | .machineCheck _ => 0x200
      | .dsi _ _ => 0x300
      | .isi _ => 0x400
      | .external => 0x500
      | .alignment _ _ => 0x600
      | .program _ _ => 0x700
      | .fpUnavailable => 0x800
      | .decrementer => 0x900
      | .systemCall => 0xC00
      | .trace => 0xD00
      | .fpAssist => 0xE00
    t.nia = base + offset ∧ offset &&& 0xFF = 0 ∧ msrIP t.msr = msrIP s.msr ∧ msrIR t.msr = false ∧
      (s.window = [] → msrIP s.context = msrIP s.msr)

/-- If a step of any state answers a next state in which an exception was taken, then NIA of that state is an
exception vector of the implementation, that of its own IP where the implementation has no mtmsr window and
none is open; and its MSR has PR, EE, IR, DR, FP, RI, POW, SE, BE, FE0, FE1 zero and LE equal to ILE: no
instruction and no boundary event takes an exception in another way. (20_memory.md R65; 60_exceptions.md
R276; 60_exceptions.md R280; 60_exceptions.md R281; 20_memory.md R61) -/
def Obligations.ExceptionEntersHandlerContext : Prop :=
  ∀ s t : State, step s = .next t → t.taken = true →
    HandlerMsr t.msr ∧ t.window = [] ∧ (∃ ip, IsVector t.cfg ip t.nia) ∧
      (s.cfg.msrWindow = false → s.window = [] → IsVector t.cfg (msrIP t.msr) t.nia)

/-- From any state with MSR[PR] = 1, no mtmsr window open and no hard reset among the environment's moves, a
step whose next state has MSR[PR] = 0 took an exception. (61_each_exception.md R341) -/
def Obligations.UserModeLeftOnlyByException : Prop :=
  ∀ s t : State, s.window = [] → noHardReset s → msrPR s.msr = true → step s = .next t →
    msrPR t.msr = false → t.taken = true

/-- From any state with MSR[PR] = 1, no mtmsr window open and no hard reset among the environment's moves, a
step whose next state took no exception leaves the MSR, DSISR, DAR, EAR, DABR and the configuration
unchanged, and SRR0 and SRR1 too where the implementation's translated accesses do not modify them.
(61_each_exception.md R341; 61_each_exception.md R320; 40_system_instructions.md R117) -/
def Obligations.UserModeKeepsSupervisorState : Prop :=
  ∀ s t : State, s.window = [] → noHardReset s → msrPR s.msr = true → step s = .next t →
    t.taken = false →
    t.msr = s.msr ∧ t.dsisr = s.dsisr ∧ t.dar = s.dar ∧ t.ear = s.ear ∧ t.dabr = s.dabr ∧
      t.cfg = s.cfg ∧ (s.cfg.srrClobber = false → t.srr0 = s.srr0 ∧ t.srr1 = s.srr1)

/-- In every state sc completes by taking the system call exception: SRR0 is the address of the instruction
following (its high-order half zero in 32-bit mode, which R330 does not say: decision D18 of R271, log entry
40), SRR1 the MSR copy with bits 33-36 and 42-47 zero, the MSR that of entry, NIA the vector base of the IP
in force plus 0xC00; the mtmsr window closes (a choice of the model: log entry 11); every other register and
memory is unchanged. (61_each_exception.md R330; 60_exceptions.md R271; 92_eei_decisions.md D18) -/
def Obligations.SystemCallTaken : Prop :=
  ∀ s : State, ∃ t, exec .sc s = .next t ∧ TakenFrom s t .systemCall (s.cia + 4) ∧
    t.nia = vectorBase s.cfg (msrIP s.context) + 0xC00 ∧ t.srr1 &&& 0x783F0000 = 0 ∧
    EntryFrame s t ∧ t.dsisr = s.dsisr ∧ t.dar = s.dar ∧ t.decPending = s.decPending ∧
    t.sresetReq = s.sresetReq ∧ t.mcheckReq = s.mcheckReq

/-- In supervisor mode, where provided: rfi copies SRR1 bits 32, 37-41 and 48-63 to the MSR and leaves every
other MSR bit; rfid copies bit 0 as well, a list that the source does not give (91 N2) and decision D17
chooses (log entry 40); NIA is SRR0 with its two low-order bits zero, and with its high-order half zero
unless the new MSR selects 64-bit mode; the mtmsr window closes (log entry 11); every other register and
memory is unchanged. (40_system_instructions.md R111; 40_system_instructions.md R112;
40_system_instructions.md R113; 60_exceptions.md R284; 92_eei_decisions.md D17) -/
def Obligations.ReturnRestores : Prop :=
  ∀ s : State, msrPR s.context = false →
    (Instr.rfi.provided s.cfg = true → ∃ t, exec .rfi s = .next t ∧
      t = { s with msr := t.msr, nia := t.nia, window := [] } ∧
      t.nia = (if s.cfg.is64 && msrSF t.msr then s.srr0 &&& ~~~3 else s.srr0 &&& 0xFFFFFFFC) ∧
      ∀ k, k < 64 → t.msr.getMsbD k =
        if k = 32 ∨ (37 ≤ k ∧ k ≤ 41) ∨ 48 ≤ k then s.srr1.getMsbD k else s.msr.getMsbD k) ∧
    (s.cfg.is64 = true → ∃ t, exec .rfid s = .next t ∧
      t = { s with msr := t.msr, nia := t.nia, window := [] } ∧
      t.nia = (if msrSF t.msr then s.srr0 &&& ~~~3 else s.srr0 &&& 0xFFFFFFFC) ∧
      ∀ k, k < 64 → t.msr.getMsbD k =
        if k = 0 ∨ k = 32 ∨ (37 ≤ k ∧ k ≤ 41) ∨ 48 ≤ k then s.srr1.getMsbD k
        else s.msr.getMsbD k)

/-- On a 64-bit implementation that copies reserved bits, for every exception other than ISI and a system reset
or machine check that lost state: executing rfid in the state entry leaves completes, gives every MSR bit
rfid copies (the list is decision D17's, a choice of the spec: log entry 40) its value before the exception,
leaves POW zero and ILE as before, and continues at the address entry saved, its two low-order bits zero, in
the interrupted address mode; the general registers and memory are those of the interrupted program. For a
machine check that lost no state the bits restored come from the SRR1 image that decision D24 of the spec
chooses (log entry 40): R295 and U13 leave all of it but bit 62 to the implementation. (60_exceptions.md
R272; 40_system_instructions.md R113; 60_exceptions.md R283; 60_exceptions.md R284; 92_eei_decisions.md D17;
92_eei_decisions.md D24) -/
def Obligations.EntryThenReturn : Prop :=
  ∀ (e : Exc) (addr : Word) (s : State), s.cfg.is64 = true → s.cfg.copyReserved = true →
    (∀ cause, e ≠ .isi cause) → e ≠ .systemReset true → e ≠ .machineCheck true →
    ∃ t, exec .rfid (takeException e addr s) = .next t ∧
      (∀ k, (k = 0 ∨ k = 32 ∨ (37 ≤ k ∧ k ≤ 41) ∨ 48 ≤ k) →
        t.msr.getMsbD k = s.msr.getMsbD k) ∧
      msrPOW t.msr = false ∧ msrILE t.msr = msrILE s.msr ∧
      t.nia = addressIn s.cfg s.msr (addr &&& ~~~3) ∧ t.gpr = s.gpr ∧ t.mem = s.mem

/-- In every state (td and tdi on a 64-bit implementation): if one of the five comparisons that TO selects holds
of the operands (for tw and twi the low-order words sign-extended, the immediate sign-extended), the trap
program exception is taken with SRR0 the address of the trap instruction, bit 46 the one bit set of SRR1
bits 33-36 and 42-47, and NIA at the vector base plus 0x700, and nothing else changes; otherwise execution
goes on at the next instruction and nothing else changes. (40_system_instructions.md R119;
40_system_instructions.md R120; 40_system_instructions.md R121; 40_system_instructions.md R122;
40_system_instructions.md R123; 61_each_exception.md R317) -/
def Obligations.Traps : Prop :=
  ∀ (s : State) (cond : TrapTo) (ra rb : Reg) (simm : BitVec 16),
    let holds := fun a b : Word =>
      (cond.getMsbD 0 && a.slt b) || (cond.getMsbD 1 && b.slt a) || (cond.getMsbD 2 && a == b)
        || (cond.getMsbD 3 && a.ult b) || (cond.getMsbD 4 && b.ult a)
    let runs := fun (i : Instr) (a b : Word) =>
      (holds a b = true → ∃ t, exec i s = .next t ∧
        TakenFrom s t (.program .trap false) s.cia ∧ EntryFrame s t ∧
        t.srr1 &&& 0x783F0000 = 0x00020000 ∧
        t.nia = vectorBase s.cfg (msrIP s.context) + 0x700 ∧
        t.decPending = s.decPending ∧ t.sresetReq = s.sresetReq ∧ t.mcheckReq = s.mcheckReq) ∧
      (holds a b = false → exec i s = .next { s with nia := s.maskEa (s.cia + 4) })
    let low := fun v : Word => (v.extractLsb' 0 32).signExtend 64
    runs (.tw cond ra rb) (low (s.readGpr ra)) (low (s.readGpr rb)) ∧
    runs (.twi cond ra simm) (low (s.readGpr ra)) (simm.signExtend 64) ∧
    (s.cfg.is64 = true →
      runs (.td cond ra rb) (s.readGpr ra) (s.readGpr rb) ∧
      runs (.tdi cond ra simm) (s.readGpr ra) (simm.signExtend 64))

/-- In supervisor mode mfmsr completes: in rD every defined bit of the MSR has its value, and no bit that is 0
in the MSR is 1; every other register and memory is unchanged. What a reserved bit that holds 1 reads as is
free. (40_system_instructions.md R116; 10_state.md R33) -/
def Obligations.ReadMsr : Prop :=
  ∀ (s : State) (rd : Reg), msrPR s.context = false →
    ∃ t, exec (.mfmsr rd) s = .next t ∧
      t = { s with gpr := t.gpr, nia := s.maskEa (s.cia + 4) } ∧ GprsBut s t [rd] ∧
      t.readGpr rd &&& definedMask s.cfg = truncXlen s.cfg s.msr &&& definedMask s.cfg ∧
      t.readGpr rd &&& ~~~s.msr = 0

/-- In supervisor mode, where provided: mtmsr gives MSR bits 32 to 63 the register's and leaves the high half,
mtmsrd writes all 64; execution goes on at the next instruction; the earlier MSR joins the window where the
implementation has one and the window is empty where it has none (how U8 is modelled: log entry 11); nothing
else changes. In every state each bit of the MSR value in force for the current instruction is that of the
MSR or of an earlier value in the window, ISF always that of the MSR, and with the window empty all are
those of the MSR. isync goes on at the next instruction, closes the window and changes nothing else, so that
the value in force afterwards is the MSR; sync goes on at the next instruction and changes nothing.
(40_system_instructions.md R114; 40_system_instructions.md R115; 40_system_instructions.md R124;
40_system_instructions.md R125; 60_exceptions.md R242; 93_implementation_defined.md U8) -/
def Obligations.MsrWritesTakeEffect : Prop :=
  ∀ (s : State) (rs : Reg),
    let window := if s.cfg.msrWindow then s.msr :: s.window else []
    (msrPR s.context = false →
      (Instr.provided s.cfg (.mtmsr rs) = true → exec (.mtmsr rs) s = .next { s with
        msr := (s.msr &&& 0xFFFFFFFF00000000) ||| (s.readGpr rs &&& 0x00000000FFFFFFFF)
        nia := s.maskEa (s.cia + 4)
        window := window }) ∧
      (s.cfg.is64 = true → exec (.mtmsrd rs) s = .next { s with
        msr := s.readGpr rs
        nia := s.maskEa (s.cia + 4)
        window := window })) ∧
    (∀ k, s.context.getMsbD k = s.msr.getMsbD k ∨
      ∃ old ∈ s.window, s.context.getMsbD k = old.getMsbD k) ∧
    msrISF s.context = msrISF s.msr ∧ (s.window = [] → s.context = s.msr) ∧
    (∃ t, exec .isync s = .next t ∧ t = { s with nia := s.maskEa (s.cia + 4), window := [] } ∧
      t.context = s.msr) ∧
    exec .sync s = .next { s with nia := s.maskEa (s.cia + 4) }

/-- mfspr of XER (1) in either mode, and of DSISR (18), DAR (19), DEC (22), SRR0 (26), SRR1 (27), EAR (282,
where provided) and DABR (1013, where provided) in supervisor mode, completes with rD the register zero-
extended and nothing else changed; SRR0 is so where its two reserved bits are zero, and in general has its
bits 0 to 61, a reserved bit that holds 1 reading as 1 or 0 (log entry 22). R118 gives no movement for XER,
EAR and DABR: that they are defined and read so is the model's choice (log entry 26), and their widths are
taken from the family (log entry 9). (40_system_instructions.md R118; 30_encoding.md R94; 10_state.md R34) -/
def Obligations.ReadSpr : Prop :=
  ∀ (s : State) (rd : Reg),
    let reads := fun (n : SprNum) (v : Word) => ∃ t, exec (.mfspr rd n) s = .next t ∧
      t = { s with gpr := t.gpr, nia := s.maskEa (s.cia + 4) } ∧ GprsBut s t [rd] ∧
      t.readGpr rd = truncXlen s.cfg v
    reads 1 (s.xer.setWidth 64) ∧
    (msrPR s.context = false →
      reads 18 (s.dsisr.setWidth 64) ∧ reads 19 s.dar ∧ reads 22 (s.dec.setWidth 64) ∧
      (s.srr0 &&& 3 = 0 → reads 26 s.srr0) ∧
      (∃ v, v &&& ~~~3 = s.srr0 &&& ~~~3 ∧ v &&& ~~~s.srr0 = 0 ∧ reads 26 v) ∧
      reads 27 s.srr1 ∧ (s.cfg.hasExtControl = true → reads 282 (s.ear.setWidth 64)) ∧
      (s.cfg.hasDabr = true → reads 1013 s.dabr))

/-- mtspr of XER (1) in either mode, and of DSISR (18), DAR (19), DEC (22), SRR0 (26), SRR1 (27), EAR (282,
where provided) and DABR (1013, where provided) in supervisor mode, completes with the register written
(32-bit registers from the low-order word, the others within XLEN) and nothing else changed, but that a
write to DEC that turns its bit 0 from 0 to 1 sets dec_pending, which no write clears. R117 leaves other
SPRs than DSISR, DAR, DEC, SRR0 and SRR1 outside the source: that XER, EAR and DABR are defined and written
so is the model's choice (log entry 26), and their widths are taken from the family (log entry 9).
(40_system_instructions.md R117; 61_each_exception.md R326; 30_encoding.md R94) -/
def Obligations.WriteSpr : Prop :=
  ∀ (s : State) (rs : Reg),
    let v := s.readGpr rs
    let w : BitVec 32 := v.extractLsb' 0 32
    let x := truncXlen s.cfg v
    let next := s.maskEa (s.cia + 4)
    exec (.mtspr 1 rs) s = .next { s with xer := w, nia := next } ∧
    (msrPR s.context = false →
      exec (.mtspr 18 rs) s = .next { s with dsisr := w, nia := next } ∧
      exec (.mtspr 19 rs) s = .next { s with dar := x, nia := next } ∧
      exec (.mtspr 22 rs) s = .next { s with
        dec := w
        decPending := s.decPending || (!s.dec.getMsbD 0 && w.getMsbD 0)
        nia := next } ∧
      exec (.mtspr 26 rs) s = .next { s with srr0 := x, nia := next } ∧
      exec (.mtspr 27 rs) s = .next { s with srr1 := x, nia := next } ∧
      (s.cfg.hasExtControl = true →
        exec (.mtspr 282 rs) s = .next { s with ear := w, nia := next }) ∧
      (s.cfg.hasDabr = true → exec (.mtspr 1013 rs) s = .next { s with dabr := x, nia := next }))

/-- With MSR[PR] = 1, mfmsr, dcbi, and, where provided, rfi, rfid, mtmsr and mtmsrd, and mtspr and mfspr of
every SPR number with the bit of weight 16 set, defined or not, take the privileged-instruction program
exception (bit 45 alone of SRR1 bits 33-36 and 42-47). For every SPR number that is none of 1, 18, 19, 22,
26, 27, 282, 1013 (which numbers are defined is log entry 26), in supervisor mode or with that bit clear,
mtspr and mfspr take the illegal-instruction program exception (bit 44 alone): of the alternatives the
source allows, the spec's choice U3 and D30 (log entry 40). In each SRR0 is the address of the instruction,
NIA the vector base plus 0x700, and nothing but the registers of entry changes. (61_each_exception.md R320;
61_each_exception.md R341; 61_each_exception.md R317; 61_each_exception.md R319; 40_system_instructions.md
R126; 93_implementation_defined.md U3) -/
def Obligations.PrivilegedInUserMode : Prop :=
  ∀ (s : State) (r ra rb : Reg) (n : SprNum),
    let refused := fun (i : Instr) (cause : ProgramCause) (bit : Word) => ∃ t, exec i s = .next t ∧
      TakenFrom s t (.program cause false) s.cia ∧ EntryFrame s t ∧
      t.srr1 &&& 0x783F0000 = bit ∧ t.nia = vectorBase s.cfg (msrIP s.context) + 0x700 ∧
      t.decPending = s.decPending ∧ t.sresetReq = s.sresetReq ∧ t.mcheckReq = s.mcheckReq
    (msrPR s.context = true →
      (∀ i ∈ [Instr.rfi, .rfid, .mtmsr r, .mtmsrd r, .mfmsr r, .dcbi ra rb],
        i.provided s.cfg = true → refused i .privileged 0x00040000) ∧
      (n.getLsbD 4 = true → refused (.mfspr r n) .privileged 0x00040000 ∧
        refused (.mtspr n r) .privileged 0x00040000)) ∧
    (n ∉ [1, 18, 19, 22, 26, 27, 282, 1013] → (msrPR s.context = false ∨ n.getLsbD 4 = false) →
      refused (.mfspr r n) .illegal 0x00080000 ∧ refused (.mtspr n r) .illegal 0x00080000)

/-- For every instruction that the implementation does not provide (a 64-bit instruction on a 32-bit
implementation, rfi and mtmsr on a 64-bit one without the bridge, an optional one absent), or whose form is
invalid (update with rA = 0, load with update with rA = rD, lmw or lswx with a base register among those
loaded), the program exception with bit 44 alone of SRR1 bits 33-36 and 42-47 is taken with SRR0 the address
of the instruction, NIA at the vector base plus 0x700, and nothing but the registers of entry changes. For
an invalid form this is one of the alternatives the source permits, chosen by decision D30 (U18, log entry
40); that field 0 counts as r0 for lmw and lswx is the model's reading (log entry 28). (61_each_exception.md
R319; 61_each_exception.md R317; 30_encoding.md R100; 42_storage_instruction_classes_indexed.md R219;
92_eei_decisions.md D30; 93_implementation_defined.md U18) -/
def Obligations.IllegalForms : Prop :=
  ∀ (s : State) (i : Instr), (i.provided s.cfg = false ∨ formValid s i = false) →
    ∃ t, exec i s = .next t ∧ TakenFrom s t (.program .illegal false) s.cia ∧ EntryFrame s t ∧
      t.srr1 &&& 0x783F0000 = 0x00080000 ∧ t.nia = vectorBase s.cfg (msrIP s.context) + 0x700 ∧
      t.decPending = s.decPending ∧ t.sresetReq = s.sresetReq ∧ t.mcheckReq = s.mcheckReq

/-- For every floating-point load or store that is provided and of valid form, with MSR[FP] = 0, whatever its
address and alignment: the floating-point unavailable exception is taken with SRR0 the address of the
instruction, SRR1 bits 33-36 and 42-47 zero, NIA at the vector base plus 0x800, and nothing but the
registers of entry changes. (61_each_exception.md R322; 61_each_exception.md R323;
42_storage_instruction_classes_indexed.md R221) -/
def Obligations.FloatUnavailable : Prop :=
  ∀ (s : State) (i : Instr), i.isFloat = true → i.provided s.cfg = true → i.validForm = true →
    msrFP s.context = false →
    ∃ t, exec i s = .next t ∧ TakenFrom s t .fpUnavailable s.cia ∧
      t.nia = vectorBase s.cfg (msrIP s.context) + 0x800 ∧ EntryFrame s t ∧
      t.srr1 &&& 0x783F0000 = 0 ∧ t.dsisr = s.dsisr ∧ t.dar = s.dar ∧ t.decPending = s.decPending ∧
      t.sresetReq = s.sresetReq ∧ t.mcheckReq = s.mcheckReq

/-- For every storage instruction in every state, with w its word: the base is zero where the rA field (bits
11-15) is 0 and the register it names otherwise; the effective address is the base plus the register of the
rB field (bits 16-20) for opcode 31, the base alone for lswi and stswi (opcode 31, extended opcodes 597 and
725), the base plus the sign-extended ds field with two zeros behind it for opcodes 58 and 62, and the base
plus the sign-extended d field (bits 16-31) for every other; the sum modulo 2 to the 64 in 64-bit mode, and
its low-order 32 bits with the high half zero in 32-bit mode and on a 32-bit implementation. (30_encoding.md
R93; 20_memory.md R60; 41_storage_instruction_classes.md R175; 41_storage_instruction_classes.md R177) -/
def Obligations.EffectiveAddresses : Prop :=
  ∀ (s : State) (i : Instr) (a : Access), accessOf s i = some a →
    let w := encode i
    let ra : BitVec 5 := w.extractLsb' 16 5
    let base := if ra = 0 then 0 else s.readGpr ra
    let opcode : BitVec 6 := w.extractLsb' 26 6
    let extended : BitVec 10 := w.extractLsb' 1 10
    let sum := if opcode = 31 then
        (if extended = 597 ∨ extended = 725 then base else base + s.readGpr (w.extractLsb' 11 5))
      else if opcode = 58 ∨ opcode = 62 then base + (w.extractLsb' 2 14 ++ 0#2).signExtend 64
      else base + (w.extractLsb' 0 16).signExtend 64
    a.ea = (if s.cfg.is64 && msrSF s.context then sum else sum &&& 0x00000000FFFFFFFF)

/-- Wherever its access is clear (no alignment exception, no DSI, memory present), each completes: lwz, lwzx,
lhz, lhzx, lbz, lbzx, and on a 64-bit implementation ld, ldx, with rD the operand at the effective address,
zero-extended; lha, lhax, and on a 64-bit implementation lwa, lwax, with rD the operand sign-extended. Every
other register and all of memory is unchanged, and execution goes on at the next instruction (SRR0 and SRR1
may differ only where a translated access may modify them). A clear access to a direct-store segment moves
the bytes of memory at the translated address (a choice of the model: log entry 45), and a misaligned one in
little-endian mode those that log entry 12 says. (41_storage_instruction_classes.md R141;
41_storage_instruction_classes.md R145; 41_storage_instruction_classes.md R147;
41_storage_instruction_classes.md R161; 41_storage_instruction_classes.md R163;
41_storage_instruction_classes.md R168; 41_storage_instruction_classes.md R172;
42_storage_instruction_classes_indexed.md R187; 42_storage_instruction_classes_indexed.md R191;
42_storage_instruction_classes_indexed.md R193; 42_storage_instruction_classes_indexed.md R206;
42_storage_instruction_classes_indexed.md R210) -/
def Obligations.IntegerLoads : Prop :=
  ∀ (s : State) (rd ra rb : Reg) (d : BitVec 16) (ds : BitVec 14),
    let half := fun a : Access => ((s.operand a).extractLsb' 0 16).signExtend 64
    let word := fun a : Access => ((s.operand a).extractLsb' 0 32).signExtend 64
    (CompletesAt s (.lwz rd ra d) fun a t => LoadsGpr s t rd (s.operand a)) ∧
    (CompletesAt s (.lwzx rd ra rb) fun a t => LoadsGpr s t rd (s.operand a)) ∧
    (CompletesAt s (.lhz rd ra d) fun a t => LoadsGpr s t rd (s.operand a)) ∧
    (CompletesAt s (.lhzx rd ra rb) fun a t => LoadsGpr s t rd (s.operand a)) ∧
    (CompletesAt s (.lbz rd ra d) fun a t => LoadsGpr s t rd (s.operand a)) ∧
    (CompletesAt s (.lbzx rd ra rb) fun a t => LoadsGpr s t rd (s.operand a)) ∧
    (CompletesAt s (.lha rd ra d) fun a t => LoadsGpr s t rd (half a)) ∧
    (CompletesAt s (.lhax rd ra rb) fun a t => LoadsGpr s t rd (half a)) ∧
    (s.cfg.is64 = true →
      (CompletesAt s (.ld rd ra ds) fun a t => LoadsGpr s t rd (s.operand a)) ∧
      (CompletesAt s (.ldx rd ra rb) fun a t => LoadsGpr s t rd (s.operand a)) ∧
      (CompletesAt s (.lwa rd ra ds) fun a t => LoadsGpr s t rd (word a)) ∧
      (CompletesAt s (.lwax rd ra rb) fun a t => LoadsGpr s t rd (word a)))

/-- With rA neither 0 nor rD, wherever its access is clear, lwzu, lwzux, lhzu, lhzux, lbzu, lbzux (zero-
extended), lhau, lhaux (sign-extended) and, on a 64-bit implementation, ldu, ldux and lwaux complete: rD
holds the extended operand, rA the effective address, and nothing else changes but NIA (and SRR0, SRR1 where
a translated access may modify them). (rA = 0 and rA = rD are invalid forms: IllegalForms.) A clear access
to a direct-store segment moves the bytes of memory at the translated address (a choice of the model: log
entry 45), and a misaligned one in little-endian mode those that log entry 12 says.
(41_storage_instruction_classes.md R142; 41_storage_instruction_classes.md R146;
41_storage_instruction_classes.md R148; 41_storage_instruction_classes.md R162;
41_storage_instruction_classes.md R169; 41_storage_instruction_classes.md R173;
42_storage_instruction_classes_indexed.md R188; 42_storage_instruction_classes_indexed.md R192;
42_storage_instruction_classes_indexed.md R194; 42_storage_instruction_classes_indexed.md R207;
42_storage_instruction_classes_indexed.md R211) -/
def Obligations.UpdateLoads : Prop :=
  ∀ (s : State) (rd ra rb : Reg) (d : BitVec 16) (ds : BitVec 14), ra ≠ 0 → ra ≠ rd →
    (CompletesAt s (.lwzu rd ra d) fun a t => LoadsGprUpdating s t rd (s.operand a) ra a.ea) ∧
    (CompletesAt s (.lwzux rd ra rb) fun a t => LoadsGprUpdating s t rd (s.operand a) ra a.ea) ∧
    (CompletesAt s (.lhzu rd ra d) fun a t => LoadsGprUpdating s t rd (s.operand a) ra a.ea) ∧
    (CompletesAt s (.lhzux rd ra rb) fun a t => LoadsGprUpdating s t rd (s.operand a) ra a.ea) ∧
    (CompletesAt s (.lbzu rd ra d) fun a t => LoadsGprUpdating s t rd (s.operand a) ra a.ea) ∧
    (CompletesAt s (.lbzux rd ra rb) fun a t => LoadsGprUpdating s t rd (s.operand a) ra a.ea) ∧
    (CompletesAt s (.lhau rd ra d) fun a t => LoadsGprUpdating s t rd (((s.operand a).extractLsb' 0 16).signExtend 64) ra a.ea) ∧
    (CompletesAt s (.lhaux rd ra rb) fun a t => LoadsGprUpdating s t rd (((s.operand a).extractLsb' 0 16).signExtend 64) ra a.ea) ∧
    (s.cfg.is64 = true →
      (CompletesAt s (.ldu rd ra ds) fun a t => LoadsGprUpdating s t rd (s.operand a) ra a.ea) ∧
      (CompletesAt s (.ldux rd ra rb) fun a t => LoadsGprUpdating s t rd (s.operand a) ra a.ea) ∧
      (CompletesAt s (.lwaux rd ra rb) fun a t => LoadsGprUpdating s t rd (((s.operand a).extractLsb' 0 32).signExtend 64) ra a.ea))

/-- From any state with memory in canonical form, wherever its access is clear: lwbrx and lhbrx put the operand
with its four or two bytes reversed in rD; stwbrx and sthbrx store, as byte i in address order, the byte
that stwx and sthx store as the last byte less i. Nothing else changes but NIA (and SRR0, SRR1 where a
translated access may modify them). A clear access to a direct-store segment moves the bytes of memory at
the translated address (a choice of the model: log entry 45), and a misaligned one in little-endian mode
those that log entry 12 says. (41_storage_instruction_classes.md R180; 41_storage_instruction_classes.md
R181; 41_storage_instruction_classes.md R182; 41_storage_instruction_classes.md R183) -/
def Obligations.ByteReverse : Prop :=
  ∀ (s : State) (rd rs ra rb : Reg), s.mem.wf = true →
    (CompletesAt s (.lwbrx rd ra rb) fun a t => let v := s.operand a
      LoadsGpr s t rd (((v &&& 0xFF) <<< 24) ||| ((v &&& 0xFF00) <<< 8) ||| ((v >>> 8) &&& 0xFF00)
        ||| ((v >>> 24) &&& 0xFF))) ∧
    (CompletesAt s (.lhbrx rd ra rb) fun a t => let v := s.operand a
      LoadsGpr s t rd (((v &&& 0xFF) <<< 8) ||| ((v >>> 8) &&& 0xFF))) ∧
    (CompletesAt s (.stwbrx rs ra rb) fun a t =>
      StoresBytes s t a fun i => valueByte s 4 (s.readGpr rs) (3 - i)) ∧
    (CompletesAt s (.sthbrx rs ra rb) fun a t =>
      StoresBytes s t a fun i => valueByte s 2 (s.readGpr rs) (1 - i))

/-- From any state with memory in canonical form, wherever its access is clear, stw, stwx, sth, sthx, stb, stbx
and, on a 64-bit implementation, std, stdx complete: each byte of the operand reads as the register's byte
in the byte order in force, every other byte of memory reads as before, and nothing else changes but NIA
(and SRR0, SRR1 where a translated access may modify them). A clear access to a direct-store segment moves
the bytes of memory at the translated address (a choice of the model: log entry 45), and a misaligned one in
little-endian mode those that log entry 12 says. (41_storage_instruction_classes.md R143;
41_storage_instruction_classes.md R149; 41_storage_instruction_classes.md R164;
41_storage_instruction_classes.md R170; 42_storage_instruction_classes_indexed.md R189;
42_storage_instruction_classes_indexed.md R195; 42_storage_instruction_classes_indexed.md R208;
42_storage_instruction_classes_indexed.md R212) -/
def Obligations.IntegerStores : Prop :=
  ∀ (s : State) (rs ra rb : Reg) (d : BitVec 16) (ds : BitVec 14), s.mem.wf = true →
    (CompletesAt s (.stw rs ra d) fun a t => StoresBytes s t a (valueByte s 4 (s.readGpr rs))) ∧
    (CompletesAt s (.stwx rs ra rb) fun a t => StoresBytes s t a (valueByte s 4 (s.readGpr rs))) ∧
    (CompletesAt s (.sth rs ra d) fun a t => StoresBytes s t a (valueByte s 2 (s.readGpr rs))) ∧
    (CompletesAt s (.sthx rs ra rb) fun a t => StoresBytes s t a (valueByte s 2 (s.readGpr rs))) ∧
    (CompletesAt s (.stb rs ra d) fun a t => StoresBytes s t a (valueByte s 1 (s.readGpr rs))) ∧
    (CompletesAt s (.stbx rs ra rb) fun a t => StoresBytes s t a (valueByte s 1 (s.readGpr rs))) ∧
    (s.cfg.is64 = true →
      (CompletesAt s (.std rs ra ds) fun a t => StoresBytes s t a (valueByte s 8 (s.readGpr rs))) ∧
      (CompletesAt s (.stdx rs ra rb) fun a t => StoresBytes s t a (valueByte s 8 (s.readGpr rs))))

/-- With rA not 0, from any state with memory in canonical form, wherever its access is clear, stwu, stwux,
sthu, sthux, stbu, stbux and, on a 64-bit implementation, stdu, stdux complete: memory as for the form
without update, with the value rS held before (rS may be rA), rA the effective address, and nothing else
changes but NIA (and SRR0, SRR1 where a translated access may modify them). A clear access to a direct-store
segment moves the bytes of memory at the translated address (a choice of the model: log entry 45), and a
misaligned one in little-endian mode those that log entry 12 says. (41_storage_instruction_classes.md R144;
41_storage_instruction_classes.md R150; 41_storage_instruction_classes.md R165;
41_storage_instruction_classes.md R171; 42_storage_instruction_classes_indexed.md R190;
42_storage_instruction_classes_indexed.md R196; 42_storage_instruction_classes_indexed.md R209;
42_storage_instruction_classes_indexed.md R213) -/
def Obligations.UpdateStores : Prop :=
  ∀ (s : State) (rs ra rb : Reg) (d : BitVec 16) (ds : BitVec 14), s.mem.wf = true → ra ≠ 0 →
    (CompletesAt s (.stwu rs ra d) fun a t => StoresBytesUpdating s t a (valueByte s 4 (s.readGpr rs)) ra) ∧
    (CompletesAt s (.stwux rs ra rb) fun a t => StoresBytesUpdating s t a (valueByte s 4 (s.readGpr rs)) ra) ∧
    (CompletesAt s (.sthu rs ra d) fun a t => StoresBytesUpdating s t a (valueByte s 2 (s.readGpr rs)) ra) ∧
    (CompletesAt s (.sthux rs ra rb) fun a t => StoresBytesUpdating s t a (valueByte s 2 (s.readGpr rs)) ra) ∧
    (CompletesAt s (.stbu rs ra d) fun a t => StoresBytesUpdating s t a (valueByte s 1 (s.readGpr rs)) ra) ∧
    (CompletesAt s (.stbux rs ra rb) fun a t => StoresBytesUpdating s t a (valueByte s 1 (s.readGpr rs)) ra) ∧
    (s.cfg.is64 = true →
      (CompletesAt s (.stdu rs ra ds) fun a t => StoresBytesUpdating s t a (valueByte s 8 (s.readGpr rs)) ra) ∧
      (CompletesAt s (.stdux rs ra rb) fun a t => StoresBytesUpdating s t a (valueByte s 8 (s.readGpr rs)) ra))

/-- With MSR[FP] = 1, wherever its access is clear, lfs, lfsx (single, converted to double format, which the
spec does not define: log entry 32) and lfd, lfdx (double) complete with frD loaded and nothing else changed
but NIA (and SRR0, SRR1 where a translated access may modify them); with rA not 0, lfsu, lfsux, lfdu, lfdux
complete likewise with rA the effective address. A clear access to a direct-store segment moves the bytes of
memory at the translated address (a choice of the model: log entry 45), and a misaligned one in little-
endian mode those that log entry 12 says. (41_storage_instruction_classes.md R153;
41_storage_instruction_classes.md R154; 41_storage_instruction_classes.md R155;
41_storage_instruction_classes.md R156; 42_storage_instruction_classes_indexed.md R197;
42_storage_instruction_classes_indexed.md R198; 42_storage_instruction_classes_indexed.md R199;
42_storage_instruction_classes_indexed.md R200) -/
def Obligations.FloatLoads : Prop :=
  ∀ (s : State) (fr : FReg) (ra rb : Reg) (d : BitVec 16), msrFP s.context = true →
    (CompletesAt s (.lfs fr ra d) fun a t => LoadsFpr s t fr (doubleOfSingle ((s.operand a).setWidth 32))) ∧
    (CompletesAt s (.lfsx fr ra rb) fun a t => LoadsFpr s t fr (doubleOfSingle ((s.operand a).setWidth 32))) ∧
    (CompletesAt s (.lfd fr ra d) fun a t => LoadsFpr s t fr (s.operand a)) ∧
    (CompletesAt s (.lfdx fr ra rb) fun a t => LoadsFpr s t fr (s.operand a)) ∧
    (ra ≠ 0 →
      (CompletesAt s (.lfsu fr ra d) fun a t => LoadsFprUpdating s t fr (doubleOfSingle ((s.operand a).setWidth 32)) ra a.ea) ∧
      (CompletesAt s (.lfsux fr ra rb) fun a t => LoadsFprUpdating s t fr (doubleOfSingle ((s.operand a).setWidth 32)) ra a.ea) ∧
      (CompletesAt s (.lfdu fr ra d) fun a t => LoadsFprUpdating s t fr (s.operand a) ra a.ea) ∧
      (CompletesAt s (.lfdux fr ra rb) fun a t => LoadsFprUpdating s t fr (s.operand a) ra a.ea))

/-- With MSR[FP] = 1, from any state with memory in canonical form, wherever its access is clear: stfs, stfsx
store frS in single format (the spec does not define the conversion: log entry 32), stfd, stfdx all of frS,
stfiwx where provided its low-order word; with rA not 0, stfsu, stfsux, stfdu, stfdux likewise with rA the
effective address. Every other byte of memory reads as before and nothing else changes but NIA (and SRR0,
SRR1 where a translated access may modify them). A clear access to a direct-store segment moves the bytes of
memory at the translated address (a choice of the model: log entry 45), and a misaligned one in little-
endian mode those that log entry 12 says. (41_storage_instruction_classes.md R157;
41_storage_instruction_classes.md R158; 41_storage_instruction_classes.md R159;
41_storage_instruction_classes.md R160; 42_storage_instruction_classes_indexed.md R201;
42_storage_instruction_classes_indexed.md R202; 42_storage_instruction_classes_indexed.md R203;
42_storage_instruction_classes_indexed.md R204; 42_storage_instruction_classes_indexed.md R205) -/
def Obligations.FloatStores : Prop :=
  ∀ (s : State) (fr : FReg) (ra rb : Reg) (d : BitVec 16), s.mem.wf = true →
    msrFP s.context = true →
    (CompletesAt s (.stfs fr ra d) fun a t => StoresBytes s t a (valueByte s 4 ((s.singleOfDouble (s.readFpr fr)).setWidth 64))) ∧
    (CompletesAt s (.stfsx fr ra rb) fun a t => StoresBytes s t a (valueByte s 4 ((s.singleOfDouble (s.readFpr fr)).setWidth 64))) ∧
    (CompletesAt s (.stfd fr ra d) fun a t => StoresBytes s t a (valueByte s 8 (s.readFpr fr))) ∧
    (CompletesAt s (.stfdx fr ra rb) fun a t => StoresBytes s t a (valueByte s 8 (s.readFpr fr))) ∧
    (s.cfg.hasStfiwx = true → (CompletesAt s (.stfiwx fr ra rb) fun a t => StoresBytes s t a (valueByte s 4 (s.readFpr fr)))) ∧
    (ra ≠ 0 →
      (CompletesAt s (.stfsu fr ra d) fun a t => StoresBytesUpdating s t a (valueByte s 4 ((s.singleOfDouble (s.readFpr fr)).setWidth 64)) ra) ∧
      (CompletesAt s (.stfsux fr ra rb) fun a t => StoresBytesUpdating s t a (valueByte s 4 ((s.singleOfDouble (s.readFpr fr)).setWidth 64)) ra) ∧
      (CompletesAt s (.stfdu fr ra d) fun a t => StoresBytesUpdating s t a (valueByte s 8 (s.readFpr fr)) ra) ∧
      (CompletesAt s (.stfdux fr ra rb) fun a t => StoresBytesUpdating s t a (valueByte s 8 (s.readFpr fr)) ra))

/-- Wherever its access is clear: lmw, with rA below rD, loads each register from rD to r31 with the word four
bytes further on for each register, zero-extended, and leaves the registers below; stmw, from any state with
memory in canonical form, stores the low-order words of rS to r31 at successive words, every other byte of
memory reading as before. Nothing else changes but NIA (and SRR0, SRR1 where a translated access may modify
them). A clear access to a direct-store segment moves the bytes of memory at the translated address (log
entry 45). (41_storage_instruction_classes.md R151; 41_storage_instruction_classes.md R152) -/
def Obligations.MultipleWords : Prop :=
  ∀ (s : State) (r ra : Reg) (d : BitVec 16),
    (ra.toNat < r.toNat → CompletesAt s (.lmw r ra d) fun a t => a.words = 32 - r.toNat ∧
      LoadsWords s t a r) ∧
    (s.mem.wf = true → CompletesAt s (.stmw r ra d) fun a t => a.len = 4 * (32 - r.toNat) ∧
      StoresBytes s t a (registerByte s r))

/-- Wherever its access is clear: lswi with its count from NB (32 for 0), and lswx of valid form with a nonzero
count in XER[25-31], load the bytes into registers from rD on, four each, the numbers wrapping from 31 to 0,
the last register filled with zeros; stswi and stswx, from any state with memory in canonical form, store
the bytes of registers from rS on likewise. Every other register and byte of memory is unchanged but NIA
(and SRR0, SRR1 where a translated access may modify them). With a zero count lswx and stswx go on at the
next instruction and change nothing else, whatever the address. That the high-order 32 bits of each register
that lswi or lswx loads are zero on a 64-bit implementation is the model's choice (PRESUMED: R174 and R175
give the low-order four bytes alone; log entry 44). A clear access to a direct-store segment moves the bytes
of memory at the translated address (log entry 45). (41_storage_instruction_classes.md R174;
41_storage_instruction_classes.md R175; 41_storage_instruction_classes.md R176;
41_storage_instruction_classes.md R177; 41_storage_instruction_classes.md R140; 61_each_exception.md R301) -/
def Obligations.StringTransfers : Prop :=
  ∀ (s : State) (r ra rb : Reg) (nb : BitVec 5), let n := (s.xer &&& 0x7F).toNat
    let m := if nb = 0 then 32 else nb.toNat
    (CompletesAt s (.lswi r ra nb) fun a t => a.len = m ∧ LoadsWords s t a r) ∧
    (n ≠ 0 → stringFormValid r ra rb n = true →
      CompletesAt s (.lswx r ra rb) fun a t => a.len = n ∧ LoadsWords s t a r) ∧
    (s.mem.wf = true →
      (CompletesAt s (.stswi r ra nb) fun a t => a.len = m ∧ StoresBytes s t a (registerByte s r)) ∧
      (n ≠ 0 →
        CompletesAt s (.stswx r ra rb) fun a t => a.len = n ∧ StoresBytes s t a (registerByte s r))) ∧
    (n = 0 → exec (.lswx r ra rb) s = .next { s with nia := s.maskEa (s.cia + 4) } ∧
      exec (.stswx r ra rb) s = .next { s with nia := s.maskEa (s.cia + 4) })

/-- Wherever its access is clear: lwarx and, on a 64-bit implementation, ldarx complete with rD the operand and
the reservation set with the effective address, every other register and all of memory unchanged; from any
state with memory in canonical form, stwcx. and, on a 64-bit implementation, stdcx. complete: with the
reservation set the operand's bytes are stored and CR0 is 001 followed by XER[SO]; without it memory is
unchanged and CR0 is 000 followed by XER[SO]; the other CR fields are unchanged, the reservation is clear,
every general register is unchanged. (SRR0 and SRR1 may differ only where a translated access may modify
them.) That the reservation may have been set at any address is the model's reading (log entry 29); that CR0
is CR bits 0 to 3 and XER[SO] is XER bit 0 is taken from the family (log entry 8).
(41_storage_instruction_classes.md R166; 41_storage_instruction_classes.md R167;
41_storage_instruction_classes.md R178; 41_storage_instruction_classes.md R179) -/
def Obligations.ReservedAccesses : Prop :=
  ∀ (s : State) (r ra rb : Reg),
    let reserves := fun (a : Access) (t : State) => Resumes s t ∧
      t = { s with gpr := t.gpr, reservation := some a.ea, nia := t.nia,
                   srr0 := t.srr0, srr1 := t.srr1 } ∧
      t.readGpr r = truncXlen s.cfg (s.operand a) ∧ GprsBut s t [r]
    let stores := fun (n : Nat) (a : Access) (t : State) => Resumes s t ∧
      t = { s with mem := t.mem, cr := t.cr, reservation := none, nia := t.nia,
                   srr0 := t.srr0, srr1 := t.srr1 } ∧
      (if s.reservation.isSome then StoredAt s a (valueByte s n (s.readGpr r)) t.mem
        else t.mem = s.mem) ∧
      t.cr.getMsbD 0 = false ∧ t.cr.getMsbD 1 = false ∧ t.cr.getMsbD 2 = s.reservation.isSome ∧
      t.cr.getMsbD 3 = xerSO s.xer ∧ ∀ k, 4 ≤ k → t.cr.getMsbD k = s.cr.getMsbD k
    CompletesAt s (.lwarx r ra rb) reserves ∧
    (s.cfg.is64 = true → CompletesAt s (.ldarx r ra rb) reserves) ∧
    (s.mem.wf = true → CompletesAt s (.stwcxDot r ra rb) (stores 4) ∧
      (s.cfg.is64 = true → CompletesAt s (.stdcxDot r ra rb) (stores 8)))

/-- Where the instructions are provided. Wherever the access is clear (EAR[E] = 1 among its conditions): eciwx
puts some word, zero-extended, in rD (which word is the device's, a free value: log entry 31); ecowx sends
the low-order word of rS, all four bytes, for the translated address (in little-endian mode too the
translation of the effective address itself, where R68 does not say whether its modification applies: the
model's choice, log entry 48); every other register and all of memory is unchanged (SRR0 and SRR1 may differ
only where a translated access may modify them). With EAR[E] = 0, data translation off, a word-aligned
effective address and no DABR: eciwx takes the DSI exception with DSISR 0x00100000, ecowx with 0x02100000,
DAR the effective address and SRR0 the address of the instruction; no general register, no byte of memory
and nothing sent to the device changes. (That EAR[E] is EAR bit 0 is taken from the family: log entry 8.)
(41_storage_instruction_classes.md R184; 41_storage_instruction_classes.md R185; 61_each_exception.md R300;
61_each_exception.md R302; 61_each_exception.md R303) -/
def Obligations.ExternalControl : Prop :=
  ∀ (s : State) (r ra rb : Reg), s.cfg.hasExtControl = true →
    (CompletesAt s (.eciwx r ra rb) fun _ t => ∃ w : BitVec 32, LoadsGpr s t r (w.setWidth 64)) ∧
    (CompletesAt s (.ecowx r ra rb) fun a t => Resumes s t ∧
      t = { s with
        extOut := { pa := xlatePa (s.byteXlate a 0), word := (s.readGpr r).setWidth 32, sent := 0b1111 }
          :: s.extOut
        nia := t.nia, srr0 := t.srr0, srr1 := t.srr1 }) ∧
    let keeps := fun t : State => EntryFrame s t ∧ t.decPending = s.decPending ∧
      t.sresetReq = s.sresetReq ∧ t.mcheckReq = s.mcheckReq
    (s.cfg.hasDabr = false → earE s.ear = false → msrDR s.context = false →
      (s.eaX ra rb).toNat % 4 = 0 →
      (∃ t, exec (.eciwx r ra rb) s = .next t ∧
        TakenFrom s t (.dsi 0x00100000 (s.eaX ra rb)) s.cia ∧ keeps t) ∧
      (∃ t, exec (.ecowx r ra rb) s = .next t ∧
        TakenFrom s t (.dsi 0x02100000 (s.eaX ra rb)) s.cia ∧ keeps t))

/-- Wherever its access is clear: dcbz, from any state with memory in canonical form, completes with every byte
whose physical address agrees with the translated effective address above the block's offset bits reading as
zero, every other byte of memory as before, and every register unchanged but NIA (and SRR0, SRR1 where a
translated access may modify them); icbi, dcbst, dcbf and, in supervisor mode, dcbi go on at the next
instruction and change nothing else (but SRR0 and SRR1 likewise). R186 says only the block containing EA:
that the block is the physical one of the one translated address, and that the model has no cache, are its
choices (log entry 30); the size of the block is the parameter of decision D35 (log entry 40).
(41_storage_instruction_classes.md R186; 42_storage_instruction_classes_indexed.md R214;
42_storage_instruction_classes_indexed.md R215; 42_storage_instruction_classes_indexed.md R216;
42_storage_instruction_classes_indexed.md R217; 92_eei_decisions.md D35) -/
def Obligations.CacheInstructions : Prop :=
  ∀ (s : State) (ra rb : Reg),
    let nothing := fun (_ : Access) (t : State) => Resumes s t ∧
      t = { s with nia := t.nia, srr0 := t.srr0, srr1 := t.srr1 }
    (s.mem.wf = true → CompletesAt s (.dcbz ra rb) fun a t => Resumes s t ∧
      t = { s with mem := t.mem, nia := t.nia, srr0 := t.srr0, srr1 := t.srr1 } ∧
      ∀ p, Memory.read t.mem p =
        if p >>> s.cfg.blockLog = xlatePa (s.byteXlate a 0) >>> s.cfg.blockLog then 0
        else Memory.read s.mem p) ∧
    CompletesAt s (.icbi ra rb) nothing ∧ CompletesAt s (.dcbst ra rb) nothing ∧
      CompletesAt s (.dcbf ra rb) nothing ∧
      (msrPR s.context = false → CompletesAt s (.dcbi ra rb) nothing)

/-- For every storage instruction that is admitted and whose access the alignment rules end in the exception:
the alignment exception is taken with SRR0 the address of the instruction, DAR the effective address, DSISR
the alignment image, NIA at the vector base plus 0x600. Of what the instruction itself would have done, at
most this has happened: bytes of its operand (of the block, for dcbz) may have been written, by a store;
registers in the range of a load multiple or string may hold their word; the target of a floating-point load
may differ; CR0 may differ after a store conditional; some bytes of the low-order word of rS may have been
sent by ecowx for the translated address, where EAR[E] = 1. Every other byte of memory reads as before, and
every other register, the update register, the XER, the other CR fields and the reservation among them, is
unchanged (log entry 17; the address sent by ecowx in little-endian mode: log entry 48).
(61_each_exception.md R313; 61_each_exception.md R315; 41_storage_instruction_classes.md R140; 20_memory.md
R71; 20_memory.md R76) -/
def Obligations.AlignmentTaken : Prop :=
  ∀ (s : State) (i : Instr) (a : Access), accessOf s i = some a → admitted s i = true →
    s.alignChoice a = .exception →
    ∃ t, exec i s = .next t ∧ TakenFrom s t (.alignment (s.alignImage a) a.ea) s.cia ∧
      t.dar = a.ea ∧ t.nia = vectorBase s.cfg (msrIP s.context) + 0x600 ∧
      t.srr1 &&& 0x783F0000 = 0 ∧ Abandons s t a ∧ t.mcheckReq = s.mcheckReq ∧
      t.checkstop = s.checkstop

/-- For every storage instruction that is admitted, whose alignment raises no exception and whose access meets a
DSI condition: the DSI exception is taken with SRR0 the address of the instruction, DSISR and DAR those of
the condition, NIA at the vector base plus 0x300; what the instruction itself may have done is as for the
alignment exception: at most bytes of a store's operand (of the block, for dcbz) written, registers of the
range of a load multiple or string loaded, the target of a floating-point load, CR0 of a store conditional,
some bytes of the low-order word of rS sent by ecowx where EAR[E] = 1; every other byte and register as
before: within what R71 and R76 permit, the model's choice of how far (log entry 17; the address sent by
ecowx in little-endian mode: log entry 48). The one alternative: a store conditional without the
reservation, at an address where a normal store would meet a DSI and which is in no direct-store segment,
may instead complete as a failed one (U14, a free choice: log entry 29; that in write-through memory it may
where protection or a DABR match holds as well, where both R300 and R301 apply, is the model's choice, log
entry 29). (61_each_exception.md R300; 61_each_exception.md R301; 41_storage_instruction_classes.md R140;
20_memory.md R71; 20_memory.md R76; 93_implementation_defined.md U14) -/
def Obligations.DsiTaken : Prop :=
  ∀ (s : State) (i : Instr) (a : Access) (f : DataFault), accessOf s i = some a →
    admitted s i = true → s.alignChoice a = .correct → s.dataFault a = some f →
    let mayFail := a.cls = .reserve ∧ a.store = true ∧ s.reservation = none ∧
      (s.dataFault { a with cls := .int }).isSome = true ∧ s.anyDirect a = false
    ∃ t, exec i s = .next t ∧
      ((TakenFrom s t (.dsi f.dsisr f.dar) s.cia ∧
          t.nia = vectorBase s.cfg (msrIP s.context) + 0x300 ∧ t.srr1 &&& 0x783F0000 = 0 ∧
          Abandons s t a ∧ t.mcheckReq = s.mcheckReq ∧ t.checkstop = s.checkstop) ∨
        (mayFail ∧ Resumes s t ∧
          t = { s with cr := t.cr, nia := t.nia, srr0 := t.srr0, srr1 := t.srr1 } ∧
          t.cr = (0#3 ++ BitVec.ofBool (xerSO s.xer) ++ s.cr.extractLsb' 0 28)))

/-- For every access, with no DABR, let n be a byte of it such that no byte before it meets a condition; of dcbz
and the other cache instructions the one byte at their effective address counts (log entry 30). A byte
refuses the instruction where it is write-through or direct-store memory for a reservation instruction,
direct-store memory for external control (causes (c) and (d)). If the translation of byte n fails, or
refuses the instruction: DSISR is 0x40000000 where no translation is found, 0x00200000 where the segment
table search fails on a 64-bit implementation, 0x08000000 where protection forbids the access, 0x0C000000
where it refuses the instruction as well, 0x04000000 where only the latter, 0x80000000 on a direct-store
error (0x04000000 for a reservation or external control instruction), each with 0x02000000 for a store, with
0x00100000 for external control with EAR[E] = 0, and no other bit; but where protection, refusal and EAR[E]
= 0 meet, protection or refusal with the bit of EAR[E]. DAR is the effective address of byte n, or that of
the instruction where EAR[E] = 0. If no byte meets a condition there is no DSI, but with EAR[E] = 0 the one
with DSISR 0x00100000 (0x02100000 for ecowx). Choices: that (c) and (d) are always taken is decision D26,
that the conditions of a pair are reported together D27 and the DAR's value D28 (log entries 20 and 40; U9
permits others); reporting the first byte's condition, and which of the two pairs, is the model's (log entry
19), and so is showing a failed segment search on a 32-bit implementation as 0x40000000 (log entry 19), and
0x80000000 for a direct-store error of a cache instruction or dcbz, for which R186 and R214 to R217 list no
such cause (log entry 47). (61_each_exception.md R300; 61_each_exception.md R302; 61_each_exception.md R303;
10_state.md R42; 92_eei_decisions.md D26; 92_eei_decisions.md D27; 92_eei_decisions.md D28) -/
def Obligations.TranslationFaultBits : Prop :=
  ∀ (s : State) (a : Access), s.cfg.hasDabr = false →
    let bytes := if a.cls = .cache ∨ a.cls = .dcbz then 1 else a.len
    let store : BitVec 32 := if a.store then 0x02000000 else 0
    let disabled := decide (a.cls = .external) && !earE s.ear
    let external : BitVec 32 := if disabled then 0x00100000 else 0
    let refuses := fun attrs : Attrs =>
      decide (a.cls = .reserve) && (attrs.writeThrough || attrs.directStore) ||
        decide (a.cls = .external) && attrs.directStore
    let permits := fun r : XlateResult => ∃ pa attrs, r = .ok pa attrs ∧ refuses attrs = false
    let reports := fun (n : Nat) (bits : BitVec 32) => ∃ f, s.dataFault a = some f ∧
      f.dsisr = bits ||| external ||| store ∧
      f.dar = (if disabled then a.ea else s.maskEa (a.ea + BitVec.ofNat 64 n))
    (∀ n, n < bytes → (∀ i, i < n → permits (s.byteXlate a i)) →
      match s.byteXlate a n with
      | .noTranslation => reports n 0x40000000
      | .segmentFail => reports n (if s.cfg.is64 then 0x00200000 else 0x40000000)
      | .protection attrs =>
        if refuses attrs then
          if disabled then ∃ f, s.dataFault a = some f ∧ f.dar = a.ea ∧
            f.dsisr ∈ [0x08100000 ||| store, 0x04100000 ||| store]
          else reports n 0x0C000000
        else reports n 0x08000000
      | .directStoreError _ =>
        reports n (if a.cls = .reserve ∨ a.cls = .external then 0x04000000 else 0x80000000)
      | .ok _ attrs => refuses attrs = true → reports n 0x04000000) ∧
    ((∀ i, i < bytes → permits (s.byteXlate a i)) →
      if disabled then reports 0 0 else s.dataFault a = none)

/-- Where the DABR is implemented, for every access, translated or not: it matches if some byte lies in the
double word DABR[DAB] (for dcbz: if the block it clears contains it; a cache instruction other than dcbz
never matches), MSR[DR] equals DABR[BT], and DABR[DW] (a store, ecowx, dcbz) or DABR[DR] (a load, eciwx) is
set. An access that does not match meets just the DSI it would meet without a DABR, none if none. One that
matches meets a DSI whose DSISR is that of its other conditions (those it would report without a DABR, or
none: then 0x02000000 for a store and 0 for a load) with 0x00400000, and whose DAR is the effective address
rounded down to a double word for an integer, floating-point or reservation access of 8 bytes and to a word
for every other; but for dcbz, eciwx, ecowx and a store conditional without the reservation it is undefined
whether the match occurs (U15), and either of the two holds. With data translation off, and EAR[E] = 1 for
eciwx and ecowx, there is no other condition. The positions of DAB, BT, DW and DR in the DABR are taken from
the family (log entry 8); the rounded DAR is the representative that decision D28 chooses of the range from
A to B that U9 permits (log entries 20 and 40). (61_each_exception.md R304; 61_each_exception.md R302;
61_each_exception.md R303; 92_eei_decisions.md D28; 93_implementation_defined.md U15) -/
def Obligations.BreakpointMatch : Prop :=
  ∀ (s : State) (a : Access), s.cfg.hasDabr = true →
    let bare := { s with cfg := { s.cfg with hasDabr := false } }
    let enabled := if a.store then dabrDW s.dabr else dabrDR s.dabr
    let covers : Prop := match a.cls with
      | .cache => False
      | .dcbz => a.ea >>> max s.cfg.blockLog 3 = s.dabr >>> max s.cfg.blockLog 3
      | _ => ∃ i, i < a.len ∧ s.byteEa a i >>> 3 = s.dabr >>> 3
    let matched := covers ∧ dabrBT s.dabr = msrDR s.context ∧ enabled = true
    let open15 := a.cls = .dcbz ∨ a.cls = .external ∨
      (a.cls = .reserve ∧ a.store = true ∧ s.reservation = none)
    let double := a.len = 8 ∧ (a.cls = .int ∨ a.cls = .fp ∨ a.cls = .reserve)
    let hit := ∃ f, s.dataFault a = some f ∧
      f.dsisr = ((bare.dataFault a).map DataFault.dsisr).getD (if a.store then 0x02000000 else 0)
        ||| 0x00400000 ∧
      f.dar = (if double then a.ea &&& ~~~7 else a.ea &&& ~~~3)
    (¬matched → s.dataFault a = bare.dataFault a) ∧
    (matched → ¬open15 → hit) ∧
    (matched → open15 → hit ∨ s.dataFault a = bare.dataFault a) ∧
    (msrDR s.context = false → (a.cls = .external → earE s.ear = true) → bare.dataFault a = none)

/-- For every storage instruction that is admitted, whose access meets no alignment exception and no DSI but
finds no memory, on a platform that makes this a machine check: with MSR[ME] = 1 in force the machine check
exception is taken with SRR0 the address of the instruction; with MSR[ME] = 0 checkstop is entered and no
special register is written; what the instruction itself may have done is as for the alignment exception
(log entries 17 and 48). On a platform that does not, the model faults with noMemory (log entry 18). Choices
of the model: that the instruction is abandoned with SRR0 at it, and that alignment and DSI conditions come
first (log entry 36; in the source SRR0 is a best effort, D24); what checkstop leaves (log entry 27).
(61_each_exception.md R298; 61_each_exception.md R299; 61_each_exception.md R297; 92_eei_decisions.md D24) -/
def Obligations.AbsentMemory : Prop :=
  ∀ (s : State) (i : Instr) (a : Access), accessOf s i = some a → admitted s i = true →
    s.alignChoice a = .correct → s.dataFault a = none → (s.firstAbsent a).isSome = true →
    (s.cfg.mcheckOnAbsent = true → msrME s.context = true →
      ∃ t, exec i s = .next t ∧ TakenFrom s t (.machineCheck s.cfg.busErrorLost) s.cia ∧
        Abandons s t a ∧ t.checkstop = s.checkstop) ∧
    (s.cfg.mcheckOnAbsent = true → msrME s.context = false →
      ∃ t, exec i s = .next t ∧ t.checkstop = true ∧ t.msr = s.msr ∧ t.srr0 = s.srr0 ∧
        t.srr1 = s.srr1 ∧ t.dsisr = s.dsisr ∧ t.dar = s.dar ∧ t.nia = s.nia ∧ Abandons s t a) ∧
    (s.cfg.mcheckOnAbsent = false → exec i s = .fault .noMemory)

/-- With MSR[LE] = 1, whatever the alignment policy, the address and the translation, each of lmw, stmw, lswi,
lswx, stswi and stswx that is of valid form and transfers at least one byte takes the alignment exception
with SRR0 the address of the instruction and DAR its effective address. (20_memory.md R75;
61_each_exception.md R312) -/
def Obligations.LittleEndianMultiples : Prop :=
  ∀ (s : State) (i : Instr) (a : Access), accessOf s i = some a → admitted s i = true →
    (a.cls = .multiple ∨ a.cls = .string) → msrLE s.context = true →
    ∃ t, exec i s = .next t ∧ TakenFrom s t (.alignment (s.alignImage a) a.ea) s.cia

/-- For every storage instruction that is admitted and whose alignment outcome is undefined: ALIGN_POLICY
answers so for it, and it is a multiple in big-endian mode or an external control instruction whose operand
is not word-aligned, or a reservation instruction whose operand is not aligned to its length (item (c) of
R311 alone). It then goes on at the next instruction and takes no exception; the general registers, CR, XER,
the reservation, the floating-point registers where MSR[FP] = 1, and bytes of memory the current translation
lets the program write may hold any value; every other byte of memory reads as before, and every other
register, the MSR, SRR0, SRR1, LR, CTR, DSISR and DAR among them, is unchanged. U2 lets a model refuse
instead; that it goes on with free values, and that these are all that may change, is the model's choice
(log entry 16). (61_each_exception.md R312; 61_each_exception.md R311; 93_implementation_defined.md U2) -/
def Obligations.UndefinedAlignment : Prop :=
  ∀ (s : State) (i : Instr) (a : Access), accessOf s i = some a → admitted s i = true →
    s.alignChoice a = .undefined →
    alignPolicy s.cfg.alignRules (encode i) a.ea s.context = some .undefined ∧
    ((a.cls = .multiple ∧ msrLE s.context = false ∧ a.ea.toNat % 4 ≠ 0) ∨
      (a.cls = .external ∧ a.ea.toNat % 4 ≠ 0) ∨ (a.cls = .reserve ∧ a.ea.toNat % a.len ≠ 0)) ∧
    ∃ t, exec i s = .next t ∧
      t = { s with gpr := t.gpr, fpr := t.fpr, cr := t.cr, xer := t.xer
                   reservation := t.reservation, mem := t.mem, nia := t.nia } ∧
      t.nia = s.maskEa (s.cia + 4) ∧ (msrFP s.context = false → t.fpr = s.fpr) ∧
      ∀ p, Memory.read t.mem p = Memory.read s.mem p ∨
        (memoryAt s.cfg p = true ∧ ∃ ea pa attrs,
          s.translate .store (s.maskEa ea) = .ok pa attrs ∧ p = s.byteAddress pa)

/-- For every storage instruction that is admitted and whose access the alignment rules end in the exception, in
either byte order and whether translation is on or off: the alignment exception is taken, and the DAR is the
effective address of the access as the instruction computes it, for a multiple or string that of its first
byte; on a 64-bit implementation in 32-bit mode its high-order 32 bits are zero. (61_each_exception.md R315) -/
def Obligations.AlignmentDar : Prop :=
  ∀ (s : State) (i : Instr) (a : Access), accessOf s i = some a → admitted s i = true →
    s.alignChoice a = .exception →
    ∃ t, exec i s = .next t ∧ t.taken = true ∧
      t.nia = vectorBase s.cfg (msrIP s.context) + 0x600 ∧ t.dar = a.ea ∧ s.byteEa a 0 = a.ea ∧
      (s.cfg.is64 = true → msrSF s.context = false → t.dar.extractLsb' 32 32 = 0)

/-- Where ALIGN_POLICY is the default (decision D8, a choice of the spec: log entry 15), the alignment exception
is the outcome for: (a) a floating-point and (b) an integer double-word operand not word-aligned; (c) a
multiple or external control operand not word-aligned, a reservation operand not aligned to its length; (e)
a floating-point operand with a byte in a direct-store segment; (f) with data translation on, an elementary
or string operand with a byte in another page, BAT block or direct-store segment than its first byte
(protection domains as log entry 14 reads R17); (g) with data translation on, a multiple with a byte in
another segment or BAT block; (h) dcbz of write-through or caching-inhibited memory, or without a write-back
data cache; (i), (j) a multiple, string, elementary or reservation operand with a byte in a direct-store
segment that crosses a 256-Mbyte boundary; (k) an elementary operand misaligned in little-endian mode. In
big-endian mode an elementary access (of 8 bytes or floating-point: word-aligned), aligned or not, or a
string, with data translation off, is performed. (61_each_exception.md R311; 61_each_exception.md R312;
20_memory.md R73; 00_scope.md R17; 92_eei_decisions.md D8) -/
def Obligations.AlignmentItems : Prop :=
  ∀ (s : State) (a : Access), s.cfg.alignRules = [] →
    let aligned := fun n : Nat => a.ea.toNat % n = 0
    let raises := s.alignChoice a = .exception
    let segment := fun i : Nat => (s.byteEa a i).toNat / 2 ^ 28
    let page := fun i : Nat => (s.byteEa a i).toNat / 2 ^ 12
    let direct := fun i : Nat => ∃ pa attrs, s.byteXlate a i = .ok pa attrs ∧ attrs.directStore = true
    let elementary := a.cls = .int ∨ a.cls = .fp
    (a.cls = .fp → ¬aligned 4 → raises) ∧
    (a.cls = .int → a.len = 8 → ¬aligned 4 → raises) ∧
    ((a.cls = .multiple ∨ a.cls = .external) → ¬aligned 4 → raises) ∧
    (a.cls = .reserve → ¬aligned a.len → raises) ∧
    (a.cls = .fp → ∀ i, i < a.len → direct i → raises) ∧
    (elementary ∨ a.cls = .string → msrDR s.context = true →
      ∀ i p q x y, i < a.len → s.byteXlate a 0 = .ok p x → s.byteXlate a i = .ok q y →
        (x.directStore = false ∧ y.directStore = false ∧ x.bat = none ∧ y.bat = none ∧
            page i ≠ page 0) ∨
          (x.directStore = false ∧ y.directStore = false ∧ x.bat ≠ y.bat) ∨
          x.directStore ≠ y.directStore → raises) ∧
    (a.cls = .multiple → msrDR s.context = true → ∀ i, i < a.len →
      (segment i ≠ segment 0 ∨ ∃ p q x y, s.byteXlate a 0 = .ok p x ∧ s.byteXlate a i = .ok q y ∧
        x.bat ≠ y.bat) → raises) ∧
    (a.cls = .dcbz → ∀ p x, s.byteXlate a 0 = .ok p x →
      x.writeThrough = true ∨ x.cachingInhibited = true ∨ s.cfg.dcbzUncached = true → raises) ∧
    (elementary ∨ a.cls = .multiple ∨ a.cls = .string ∨ a.cls = .reserve →
      ∀ i j, i < a.len → j < a.len → direct i → segment j ≠ segment 0 → raises) ∧
    (elementary → msrLE s.context = true → ¬aligned a.len → raises) ∧
    (msrLE s.context = false → msrDR s.context = false →
      (a.cls = .string ∨ (elementary ∧ (a.cls = .fp ∨ a.len = 8 → aligned 4))) →
      s.alignChoice a = .correct)

/-- For an integer (1, 2, 4 or 8 bytes), floating-point (4 or 8), reservation (4 or 8), multiple or string
access that is naturally aligned, with data translation off, no DABR, memory at every byte, and big-endian
mode for a multiple or string: no alignment exception and no DSI arises under any ALIGN_POLICY, and the
access is clear. (61_each_exception.md R311; 61_each_exception.md R312; 20_memory.md R73;
61_each_exception.md R300) -/
def Obligations.AlignedAccessIsClear : Prop :=
  ∀ (s : State) (a : Access),
    ((a.cls = .int ∧ a.len ∈ [1, 2, 4, 8]) ∨ ((a.cls = .fp ∨ a.cls = .reserve) ∧ a.len ∈ [4, 8]) ∨
      ((a.cls = .multiple ∨ a.cls = .string) ∧ msrLE s.context = false)) →
    a.naturallyAligned = true → msrDR s.context = false → s.cfg.hasDabr = false →
    (∀ i, i < a.len → memoryAt s.cfg (s.bytePa a i) = true) → clear s a = true

/-- For each of the 77 storage instructions of the table of R98 (the column computed from the opcode, which
corrects ldarx as C3 says), with any operands, the image formed from its word is: DSISR[12-13] the sub-
opcode of the DS-form (zero otherwise), DSISR[14] zero, DSISR[15-21] the seven bits listed. For every
storage access, whose instruction makes it: DSISR bits 0-11 are zero; bits 12-21 are the instruction's own
image or, only where the implementation draws alternatives and the instruction has a pair, its pair's (U5);
bits 22-26 are instruction bits 6-10 but for dcbz, where they are free; bits 27-31 are instruction bits
11-15 for an update form and for lmw, lswi and lswx, or for these three, only where the implementation draws
alternatives, a register that the instruction does not load (U6). Bits the rule calls undefined are free;
which alternatives are drawn is log entry 21. (30_encoding.md R98; 61_each_exception.md R314;
42_storage_instruction_classes_indexed.md R218; 90_conflicts.md C3; 93_implementation_defined.md U5;
93_implementation_defined.md U6) -/
def Obligations.DsisrFields : Prop :=
  (∀ (r ra rb nb : BitVec 5) (d : BitVec 16) (ds : BitVec 14),
    imageOpcode (encode (.lwz r ra d)) = 0b0000000000 ∧
    imageOpcode (encode (.lwzu r ra d)) = 0b0000010000 ∧
    imageOpcode (encode (.stw r ra d)) = 0b0000000010 ∧
    imageOpcode (encode (.stwu r ra d)) = 0b0000010010 ∧
    imageOpcode (encode (.lhz r ra d)) = 0b0000000100 ∧
    imageOpcode (encode (.lhzu r ra d)) = 0b0000010100 ∧
    imageOpcode (encode (.lha r ra d)) = 0b0000000101 ∧
    imageOpcode (encode (.lhau r ra d)) = 0b0000010101 ∧
    imageOpcode (encode (.sth r ra d)) = 0b0000000110 ∧
    imageOpcode (encode (.sthu r ra d)) = 0b0000010110 ∧
    imageOpcode (encode (.lmw r ra d)) = 0b0000000111 ∧
    imageOpcode (encode (.stmw r ra d)) = 0b0000010111 ∧
    imageOpcode (encode (.lfs r ra d)) = 0b0000001000 ∧
    imageOpcode (encode (.lfsu r ra d)) = 0b0000011000 ∧
    imageOpcode (encode (.lfd r ra d)) = 0b0000001001 ∧
    imageOpcode (encode (.lfdu r ra d)) = 0b0000011001 ∧
    imageOpcode (encode (.stfs r ra d)) = 0b0000001010 ∧
    imageOpcode (encode (.stfsu r ra d)) = 0b0000011010 ∧
    imageOpcode (encode (.stfd r ra d)) = 0b0000001011 ∧
    imageOpcode (encode (.stfdu r ra d)) = 0b0000011011 ∧
    imageOpcode (encode (.ld r ra ds)) = 0b0000001101 ∧
    imageOpcode (encode (.ldu r ra ds)) = 0b0100001101 ∧
    imageOpcode (encode (.lwa r ra ds)) = 0b1000001101 ∧
    imageOpcode (encode (.std r ra ds)) = 0b0000001111 ∧
    imageOpcode (encode (.stdu r ra ds)) = 0b0100001111 ∧
    imageOpcode (encode (.lwarx r ra rb)) = 0b0000000000 ∧
    imageOpcode (encode (.ldarx r ra rb)) = 0b0000000001 ∧
    imageOpcode (encode (.ldx r ra rb)) = 0b0000100000 ∧
    imageOpcode (encode (.ldux r ra rb)) = 0b0000110000 ∧
    imageOpcode (encode (.stdx r ra rb)) = 0b0000100010 ∧
    imageOpcode (encode (.stdux r ra rb)) = 0b0000110010 ∧
    imageOpcode (encode (.lwax r ra rb)) = 0b0000100101 ∧
    imageOpcode (encode (.lwaux r ra rb)) = 0b0000110101 ∧
    imageOpcode (encode (.lswx r ra rb)) = 0b0000101000 ∧
    imageOpcode (encode (.lswi r ra nb)) = 0b0000101001 ∧
    imageOpcode (encode (.stswx r ra rb)) = 0b0000101010 ∧
    imageOpcode (encode (.stswi r ra nb)) = 0b0000101011 ∧
    imageOpcode (encode (.stwcxDot r ra rb)) = 0b0001000010 ∧
    imageOpcode (encode (.stdcxDot r ra rb)) = 0b0001000011 ∧
    imageOpcode (encode (.lwbrx r ra rb)) = 0b0001001000 ∧
    imageOpcode (encode (.stwbrx r ra rb)) = 0b0001001010 ∧
    imageOpcode (encode (.lhbrx r ra rb)) = 0b0001001100 ∧
    imageOpcode (encode (.sthbrx r ra rb)) = 0b0001001110 ∧
    imageOpcode (encode (.eciwx r ra rb)) = 0b0001010100 ∧
    imageOpcode (encode (.ecowx r ra rb)) = 0b0001010110 ∧
    imageOpcode (encode (.dcbz ra rb)) = 0b0001011111 ∧
    imageOpcode (encode (.lwzx r ra rb)) = 0b0001100000 ∧
    imageOpcode (encode (.lwzux r ra rb)) = 0b0001110000 ∧
    imageOpcode (encode (.stwx r ra rb)) = 0b0001100010 ∧
    imageOpcode (encode (.stwux r ra rb)) = 0b0001110010 ∧
    imageOpcode (encode (.lhzx r ra rb)) = 0b0001100100 ∧
    imageOpcode (encode (.lhzux r ra rb)) = 0b0001110100 ∧
    imageOpcode (encode (.lhax r ra rb)) = 0b0001100101 ∧
    imageOpcode (encode (.lhaux r ra rb)) = 0b0001110101 ∧
    imageOpcode (encode (.sthx r ra rb)) = 0b0001100110 ∧
    imageOpcode (encode (.sthux r ra rb)) = 0b0001110110 ∧
    imageOpcode (encode (.lfsx r ra rb)) = 0b0001101000 ∧
    imageOpcode (encode (.lfsux r ra rb)) = 0b0001111000 ∧
    imageOpcode (encode (.lfdx r ra rb)) = 0b0001101001 ∧
    imageOpcode (encode (.lfdux r ra rb)) = 0b0001111001 ∧
    imageOpcode (encode (.stfsx r ra rb)) = 0b0001101010 ∧
    imageOpcode (encode (.stfsux r ra rb)) = 0b0001111010 ∧
    imageOpcode (encode (.stfdx r ra rb)) = 0b0001101011 ∧
    imageOpcode (encode (.stfdux r ra rb)) = 0b0001111011 ∧
    imageOpcode (encode (.stfiwx r ra rb)) = 0b0001101111 ∧
    imageOpcode (encode (.lbz r ra d)) = 0b0000000001 ∧
    imageOpcode (encode (.lbzu r ra d)) = 0b0000010001 ∧
    imageOpcode (encode (.stb r ra d)) = 0b0000000011 ∧
    imageOpcode (encode (.stbu r ra d)) = 0b0000010011 ∧
    imageOpcode (encode (.lbzx r ra rb)) = 0b0001100001 ∧
    imageOpcode (encode (.lbzux r ra rb)) = 0b0001110001 ∧
    imageOpcode (encode (.stbx r ra rb)) = 0b0001100011 ∧
    imageOpcode (encode (.stbux r ra rb)) = 0b0001110011 ∧
    imageOpcode (encode (.icbi ra rb)) = 0b0001001111 ∧
    imageOpcode (encode (.dcbi ra rb)) = 0b0001000111 ∧
    imageOpcode (encode (.dcbst ra rb)) = 0b0001010000 ∧
    imageOpcode (encode (.dcbf ra rb)) = 0b0001000001) ∧
    ∀ (s : State) (i : Instr) (a : Access), accessOf s i = some a → let d := s.alignImage a
      let rA : BitVec 5 := (encode i).extractLsb' 16 5
      let rD : BitVec 5 := (encode i).extractLsb' 21 5
      d.extractLsb' 20 12 = 0 ∧
      (d.extractLsb' 10 10 = imageOpcode (encode i) ∨ (s.cfg.dsisrAlternatives = true ∧
        ∃ p, i.pair = some p ∧ d.extractLsb' 10 10 = imageOpcode (encode p))) ∧
      (a.cls ≠ .dcbz → d.extractLsb' 5 5 = rD) ∧
      (namesBase i = true → a.cls ≠ .multiple → a.cls ≠ .string → d.extractLsb' 0 5 = rA) ∧
      (a.store = false → a.cls = .multiple ∨ a.cls = .string →
        d.extractLsb' 0 5 = rA ∨ (s.cfg.dsisrAlternatives = true ∧
          a.words ≤ (d.extractLsb' 0 5 - rD).toNat))

/-- With data translation off and in big-endian mode byte i of any operand, loaded or stored, lies at the
effective address plus i, in the current address mode. With translation on or off, byte i lies at the
address its translation gives, in little-endian mode exclusive-or 7. For an operand of n = 1, 2, 4 or 8
bytes whose bytes translate to q, q + 1, ..., with q a multiple of n (q is the effective address with
translation off), in little-endian mode the byte of significance i (the most significant first; a load's or
store's byte n - 1 - i) lies at p + i, where p is q exclusive-or (8 - n): 7, 6, 4 or 0. In both modes such
an operand, integer, floating-point or with reservation, is the number whose bytes, most significant first,
are memory's at p, p + 1, ... (p is q itself in big-endian mode). Little-endian mode as an address
modification is what the spec gives from general knowledge (decision D15, log entry 39); how the model
writes it byte by byte is log entry 12. (20_memory.md R68; 20_memory.md R67; 20_memory.md R60;
92_eei_decisions.md D15) -/
def Obligations.OperandByteOrder : Prop :=
  ∀ (s : State) (a : Access),
    let address := fun v : Word =>
      if s.cfg.is64 && msrSF s.context then v else v &&& 0x00000000FFFFFFFF
    let lies := fun q : Word =>
      let p := if msrLE s.context then q ^^^ BitVec.ofNat 64 (8 - a.len) else q
      (∀ i, i < a.len →
        s.bytePa a (if msrLE s.context then a.len - 1 - i else i) = p + BitVec.ofNat 64 i) ∧
      s.operand a =
        ofBytes ((List.range a.len).map fun i => Memory.read s.mem (p + BitVec.ofNat 64 i))
    (msrDR s.context = false → msrLE s.context = false →
      ∀ i, s.bytePa a i = address (a.ea + BitVec.ofNat 64 i)) ∧
    (∀ i q attrs, s.byteXlate a i = .ok q attrs →
      s.bytePa a i = if msrLE s.context then q ^^^ 7 else q) ∧
    (a.len ∈ [1, 2, 4, 8] →
      (msrDR s.context = false → a.ea.toNat % a.len = 0 → address a.ea = a.ea → lies a.ea) ∧
      ∀ q : Word, q.toNat % a.len = 0 →
        (∀ i, i < a.len → ∃ attrs, s.byteXlate a i = .ok (q + BitVec.ofNat 64 i) attrs) → lies q)

/-- With no move of the environment due and no checkstop, a step takes, with SRR0 the address of the next
instruction: system reset if requested; else, if machine check is requested, machine check with ME = 1, or
checkstop with ME = 0, which writes no register but the latch; else the floating-point enabled program
exception (SRR1 bits 43 and 47) if FEX and FE0 or FE1, where FE0 and FE1 of the MSR itself count beside
those in force if an external or decrementer exception is due; else external if EE and the signal; else
decrementer if EE and its request. In each, time advances, exactly the latch of the exception taken is
cleared (the external signal is no latch) and the instruction at NIA does not run. The MSR bits are those in
force (the MSR's, where no mtmsr window is open). While a window is open and an exception that the MSR
itself enables is pending, a step that closes the window, executes sync, mtmsr or mtmsrd with a floating-
point exception so enabled, or clears EE, has taken that exception or the one due at the boundary; and where
that floating-point exception is so enabled, what a step takes at the boundary is system reset, machine
check or it (log entry 11). Choices of the spec among what the source permits (log entry 40): before the
fetch and at every boundary (D20, D21), requests as events cleared by entry (D22), the image of a machine
check and its SRR0 = NIA (D24); that checkstop writes nothing but its latch and the request's is the model's
reading (DEDUCED: log entry 27). (60_exceptions.md R263; 61_each_exception.md R295; 61_each_exception.md
R297; 61_each_exception.md R308; 61_each_exception.md R318; 40_system_instructions.md R114;
70_reset_and_hazards.md R365; 70_reset_and_hazards.md R366; 92_eei_decisions.md D20; 92_eei_decisions.md
D21; 92_eei_decisions.md D22; 92_eei_decisions.md D24) -/
def Obligations.AsynchronousExceptions : Prop :=
  ∀ s : State, s.env = [] → s.checkstop = false →
    let b : State := { s with taken := false }
    let takes := fun (e : Exc) (info : Word) (sreset mcheck pending : Bool) =>
      ∃ u, step s = .next (advance u) ∧ TakenFrom s u e s.nia ∧ EntryFrame s u ∧
        u.srr1 &&& 0x783F0000 = info ∧ u.sresetReq = sreset ∧ u.mcheckReq = mcheck ∧
        u.decPending = pending
    (if s.sresetReq then takes (.systemReset s.sresetLost) 0 false s.mcheckReq s.decPending
    else if s.mcheckReq then
      if msrME s.context then takes (.machineCheck s.mcheckLost) 0 false false s.decPending
      else step s = .next { s with checkstop := true, mcheckReq := false, taken := false }
    else if s.fex && (msrFE0 s.context || msrFE1 s.context ||
        (msrEE s.context && (s.extSignal || s.decPending) && (msrFE0 s.msr || msrFE1 s.msr))) then
      takes (.program .fpEnabled true) 0x00110000 false false s.decPending
    else if msrEE s.context && s.extSignal then takes .external 0 false false s.decPending
    else if msrEE s.context && s.decPending then takes .decrementer 0 false false false
    else boundaryException b = none) ∧
    (∀ u t, s.window ≠ [] → asleep b = false → boundaryExceptionIn s.msr b = some u →
      step s = .next t →
      (t.window = [] ∨ ((s.fex && (msrFE0 s.msr || msrFE1 s.msr)) = true ∧
        ∃ w i rest, (beginInstruction b).fetch = .word w ∧ decode (bytesOfWord w) = .ok (i, rest) ∧
          (i = .sync ∨ ∃ r, i = .mtmsr r ∨ i = .mtmsrd r)) ∨
        (msrEE s.msr = true ∧ msrEE t.msr = false)) →
      ∃ v, t = advance v ∧ (boundaryException b = some v ∨ v = u))

/-- dec_pending is set by a write to DEC, and by a count, exactly where bit 0 changes from 0 to 1, and otherwise
stays as it is, so that several requests before one is reported make one; entry to the decrementer exception
clears it and entry to no other does. Over any step with no hard reset: if bit 0 of DEC was 0 before and is
1 after, a request is pending after; and a request pending before is pending after, unless the step took the
decrementer exception. (10_state.md R49) -/
def Obligations.DecrementerRequest : Prop :=
  ∀ s : State,
    (∀ rs : Reg, msrPR s.context = false → ∃ t, exec (.mtspr 22 rs) s = .next t ∧
      t.dec = (s.readGpr rs).extractLsb' 0 32 ∧
      t.decPending = (s.decPending || (!s.dec.getMsbD 0 && t.dec.getMsbD 0))) ∧
    (advance s).decPending = (s.decPending || (!s.dec.getMsbD 0 && (advance s).dec.getMsbD 0)) ∧
    (∀ e addr, (takeException e addr s).decPending =
      (if e = .decrementer then false else s.decPending)) ∧
    ∀ t, noHardReset s → step s = .next t →
      (s.dec.getMsbD 0 = false → t.dec.getMsbD 0 = true → t.decPending = true) ∧
      (s.decPending = true → t.decPending = true ∨
        t = advance (takeException .decrementer (beginStep s).nia (beginStep s)))

/-- With no move of the environment due, no mtmsr window, no checkstop, no boundary exception and no reduced
power mode. With MSR[IR] = 1, if the translation of the fetch at NIA reports a condition, or memory from
which instructions may not be fetched, the ISI exception is taken with SRR0 the address of the instruction,
NIA at the vector base plus 0x400, and SRR1 bits 33, 35, 36, 42 showing exactly the first cause in the order
42, 33, 35, 36; DSISR and DAR are unchanged and nothing is executed. A fetch, translated or not, that meets
none of these and finds no memory at one of its four bytes is, on a platform that makes this a machine
check, the machine check exception with SRR0 the address of the instruction and NIA at the vector base plus
0x200 if ME = 1, and checkstop, writing no register, if ME = 0; on a platform that does not, the model
faults with noMemory (log entry 18). Choices: the order of the four bits is decision D29 of the spec; a
failed segment table search shown as bit 33 on a 32-bit implementation is the model's reading (DEDUCED: log
entry 19); so are that a fetch without memory abandons the instruction with SRR0 at it (log entry 36) and
what checkstop leaves (log entry 27). (61_each_exception.md R305; 61_each_exception.md R306;
61_each_exception.md R307; 61_each_exception.md R298; 20_memory.md R66; 92_eei_decisions.md D29) -/
def Obligations.FetchFailureTaken : Prop :=
  ∀ s : State, s.env = [] → s.window = [] → s.checkstop = false →
    boundaryException (beginStep s) = none → asleep (beginStep s) = false →
    let takes := fun (e : Exc) (info offset : Word) => ∃ t, step s = .next t ∧
      TakenFrom s t e (s.maskEa s.nia) ∧ t.dsisr = s.dsisr ∧ t.dar = s.dar ∧
      t.nia = vectorBase s.cfg (msrIP s.msr) + offset ∧ t.gpr = s.gpr ∧ t.mem = s.mem ∧
      t.srr1 &&& 0x783F0000 = info
    let fails := fun cause : IsiCause => takes (.isi cause) (match cause with
      | .segmentFail => 0x00200000
      | .noTranslation => 0x40000000
      | .noFetch => 0x10000000
      | .protection => 0x08000000) 0x400
    match if msrIR s.msr then translateBy s.cfg.xlate .fetch (s.maskEa s.nia) s.msr
      else .ok (s.maskEa s.nia) {} with
    | .segmentFail => fails (if s.cfg.is64 then .segmentFail else .noTranslation)
    | .noTranslation => fails .noTranslation
    | .directStoreError _ => fails .noFetch
    | .protection attrs =>
      fails (if attrs.noExecute || attrs.guarded || attrs.directStore then .noFetch
        else .protection)
    | .ok pa attrs =>
      if attrs.noExecute || attrs.guarded || attrs.directStore then fails .noFetch
      else (∃ i, i < 4 ∧ memoryAt s.cfg (if msrLE s.msr then (pa + BitVec.ofNat 64 i) ^^^ 7
          else pa + BitVec.ofNat 64 i) = false) →
        if s.cfg.mcheckOnAbsent then
          if msrME s.msr then takes (.machineCheck s.cfg.busErrorLost) 0 0x200
          else step s = .next { s with
            cia := s.maskEa s.nia, taken := false, checkstop := true, mcheckReq := false }
        else step s = .fault .noMemory

/-- Where trace is implemented and SE was in force when the instruction began (that this SE decides is decision
D31, log entry 40): an instruction other than rfi and rfid that completed without taking an exception and
without checkstop ends in the trace exception with SRR0 the address of the next instruction, SRR1 the copy
of the MSR the instruction left with zero information bits (decision D32, log entry 40: R337 lets no proof
depend on them), NIA at the vector base plus 0xD00, and nothing else changed; but mtmsr or mtmsrd with a
floating-point enabled exception pending under the new MSR or the bits in force ends in that exception
instead, with SRR0 likewise and SRR1 bits 43 and 47 (group D of R256 before the order of R263: log entry
46). rfi, rfid, an instruction that took an exception, and one that ended in checkstop, end as they are; and
with SE clear, BE set or not, or trace not implemented, every instruction does: none of the opcode table is
a branch (log entry 34). (61_each_exception.md R335; 61_each_exception.md R336; 61_each_exception.md R337;
60_exceptions.md R256; 40_system_instructions.md R114; 92_eei_decisions.md D31; 92_eei_decisions.md D32) -/
def Obligations.SingleStepTrace : Prop :=
  ∀ (i : Instr) (se be : Bool) (t : State),
    let float := t.fex && (msrFE0 t.msr || msrFE1 t.msr || msrFE0 t.context || msrFE1 t.context)
    let movesMsr := ∃ r, i = .mtmsr r ∨ i = .mtmsrd r
    let ends := fun (e : Exc) (info offset : Word) =>
      TakenFrom t (traceAfter i se be t) e t.nia ∧ EntryFrame t (traceAfter i se be t) ∧
        (traceAfter i se be t).decPending = t.decPending ∧
        (traceAfter i se be t).sresetReq = t.sresetReq ∧
        (traceAfter i se be t).mcheckReq = t.mcheckReq ∧
        (traceAfter i se be t).srr1 &&& 0x783F0000 = info ∧
        (traceAfter i se be t).nia = vectorBase t.cfg (msrIP t.context) + offset
    (t.cfg.hasTrace = true → se = true → i ≠ .rfi → i ≠ .rfid → t.taken = false →
      t.checkstop = false →
      (¬(movesMsr ∧ float = true) → ends .trace 0 0xD00) ∧
      (movesMsr → float = true → ends (.program .fpEnabled true) 0x00110000 0x700)) ∧
    ((t.cfg.hasTrace = false ∨ se = false ∨ i = .rfi ∨ i = .rfid ∨ t.taken = true ∨
      t.checkstop = true) → traceAfter i se be t = t)

/-- From a state in checkstop, with no hard reset among the environment's moves, the step answers a next state
that is still in checkstop and differs at most in the environment's inputs (external signal, request lines,
FEX, schedule): no register but FEX, no byte of memory, no decrementer count changes. That only a hard reset
leaves checkstop and that the decrementer stops in it is decision D25, a choice of the spec (R297 and R353
mark it so: log entries 27 and 40). (61_each_exception.md R297; 70_reset_and_hazards.md R353;
60_exceptions.md R263; 92_eei_decisions.md D25) -/
def Obligations.CheckstopIsStuck : Prop :=
  ∀ s : State, s.checkstop = true → noHardReset s →
    ∃ t, step s = .next t ∧ t = { s with
      env := t.env, extSignal := t.extSignal, sresetReq := t.sresetReq, sresetLost := t.sresetLost
      mcheckReq := t.mcheckReq, mcheckLost := t.mcheckLost, fex := t.fex, taken := false }

/-- Where power management is implemented, with MSR[POW] = 1 in force, no move of the environment due, no
checkstop and no boundary exception: the step changes nothing but the decrementer with its request and the
counters of steps. That POW = 1 stops execution while the decrementer counts is decision D3, a choice of the
spec (R347: the source says nothing more); that POW is read as the mtmsr window has it in force is the
model's reading (DEDUCED: log entry 38). (61_each_exception.md R347; 92_eei_decisions.md D3) -/
def Obligations.ReducedPower : Prop :=
  ∀ s : State, s.env = [] → s.checkstop = false → boundaryException (beginStep s) = none →
    s.cfg.hasPow = true → msrPOW s.context = true →
    ∃ t, step s = .next t ∧ t = { s with
      dec := t.dec, decPending := t.decPending, tickCount := t.tickCount, draws := t.draws
      taken := false } ∧
      (s.cfg.tick = 1 → t.dec = s.dec - 1 ∧ t.decPending = (s.decPending || s.dec == 0))

/-- Of the advance of time at the end of a step not in checkstop: the decrementer is reduced by one, modulo 2 to
the 32, when TICK steps have passed since the last count (at once where TICK is 1 or less), and unchanged
otherwise; its request is set by the count from 0 to 0xFFFFFFFF, by no other count, and is never cleared;
nothing else changes but the counters of steps. The width and the rate are decision D12 of the spec; that
TICK = 0 counts as 1 is the model's choice (log entry 35). (61_each_exception.md R329; 61_each_exception.md
R326; 92_eei_decisions.md D12) -/
def Obligations.DecrementerCounts : Prop :=
  ∀ s : State, s.checkstop = false → let t := advance s
    let counts := s.cfg.tick ≤ s.tickCount + 1
    t = { s with dec := t.dec, decPending := t.decPending, tickCount := t.tickCount
                 draws := s.draws + 1 } ∧
      (counts → t.dec.toNat = (s.dec.toNat + 2 ^ 32 - 1) % 2 ^ 32 ∧ t.tickCount = 0 ∧
        t.decPending = (s.decPending || s.dec == 0)) ∧
      (¬counts → t.dec = s.dec ∧ t.tickCount = s.tickCount + 1 ∧ t.decPending = s.decPending)

end
end

