-- ==== Sys2Proof/Laws/Encoding.lean ====
section
/-! SUPPORT. The fields of a word built by a format, and a word rebuilt from its fields. -/

namespace Sys2Proof

/-! ## Reading the fields back -/

@[simp] theorem formD_opcode (op : BitVec 6) (rt ra : BitVec 5) (d : BitVec 16) :
    (formD op rt ra d).extractLsb' 26 6 = op := by
  unfold formD
  ext i hi
  rw [BitVec.getElem_extractLsb', BitVec.getLsbD_append, BitVec.getLsbD_append, BitVec.getLsbD_append]
  simp only [show ¬ 26 + i < 16 by omega,
    show ¬ 26 + i - 16 < 5 by omega,
    show ¬ 26 + i - 16 - 5 < 5 by omega, if_false]
  rw [show 26 + i - 16 - 5 - 5 = i by omega, BitVec.getLsbD_eq_getElem]

@[simp] theorem formD_target (op : BitVec 6) (rt ra : BitVec 5) (d : BitVec 16) :
    (formD op rt ra d).extractLsb' 21 5 = rt := by
  unfold formD
  ext i hi
  rw [BitVec.getElem_extractLsb', BitVec.getLsbD_append, BitVec.getLsbD_append, BitVec.getLsbD_append]
  simp only [show ¬ 21 + i < 16 by omega,
    show ¬ 21 + i - 16 < 5 by omega,
    show 21 + i - 16 - 5 < 5 by omega, if_false, if_true]
  rw [show 21 + i - 16 - 5 = i by omega, BitVec.getLsbD_eq_getElem]

@[simp] theorem formD_base (op : BitVec 6) (rt ra : BitVec 5) (d : BitVec 16) :
    (formD op rt ra d).extractLsb' 16 5 = ra := by
  unfold formD
  ext i hi
  rw [BitVec.getElem_extractLsb', BitVec.getLsbD_append, BitVec.getLsbD_append]
  simp only [show ¬ 16 + i < 16 by omega,
    show 16 + i - 16 < 5 by omega, if_false, if_true]
  rw [show 16 + i - 16 = i by omega, BitVec.getLsbD_eq_getElem]

@[simp] theorem formD_immediate (op : BitVec 6) (rt ra : BitVec 5) (d : BitVec 16) :
    (formD op rt ra d).extractLsb' 0 16 = d := by
  unfold formD
  ext i hi
  rw [BitVec.getElem_extractLsb', BitVec.getLsbD_append]
  simp only [show 0 + i < 16 by omega, if_true]
  rw [show 0 + i = i by omega, BitVec.getLsbD_eq_getElem]

@[simp] theorem formDS_opcode (op : BitVec 6) (rt ra : BitVec 5) (ds : BitVec 14) (xo : BitVec 2) :
    (formDS op rt ra ds xo).extractLsb' 26 6 = op := by
  unfold formDS
  ext i hi
  rw [BitVec.getElem_extractLsb', BitVec.getLsbD_append, BitVec.getLsbD_append, BitVec.getLsbD_append, BitVec.getLsbD_append]
  simp only [show ¬ 26 + i < 2 by omega,
    show ¬ 26 + i - 2 < 14 by omega,
    show ¬ 26 + i - 2 - 14 < 5 by omega,
    show ¬ 26 + i - 2 - 14 - 5 < 5 by omega, if_false]
  rw [show 26 + i - 2 - 14 - 5 - 5 = i by omega, BitVec.getLsbD_eq_getElem]

@[simp] theorem formDS_target (op : BitVec 6) (rt ra : BitVec 5) (ds : BitVec 14) (xo : BitVec 2) :
    (formDS op rt ra ds xo).extractLsb' 21 5 = rt := by
  unfold formDS
  ext i hi
  rw [BitVec.getElem_extractLsb', BitVec.getLsbD_append, BitVec.getLsbD_append, BitVec.getLsbD_append, BitVec.getLsbD_append]
  simp only [show ¬ 21 + i < 2 by omega,
    show ¬ 21 + i - 2 < 14 by omega,
    show ¬ 21 + i - 2 - 14 < 5 by omega,
    show 21 + i - 2 - 14 - 5 < 5 by omega, if_false, if_true]
  rw [show 21 + i - 2 - 14 - 5 = i by omega, BitVec.getLsbD_eq_getElem]

@[simp] theorem formDS_base (op : BitVec 6) (rt ra : BitVec 5) (ds : BitVec 14) (xo : BitVec 2) :
    (formDS op rt ra ds xo).extractLsb' 16 5 = ra := by
  unfold formDS
  ext i hi
  rw [BitVec.getElem_extractLsb', BitVec.getLsbD_append, BitVec.getLsbD_append, BitVec.getLsbD_append]
  simp only [show ¬ 16 + i < 2 by omega,
    show ¬ 16 + i - 2 < 14 by omega,
    show 16 + i - 2 - 14 < 5 by omega, if_false, if_true]
  rw [show 16 + i - 2 - 14 = i by omega, BitVec.getLsbD_eq_getElem]

@[simp] theorem formDS_displacement (op : BitVec 6) (rt ra : BitVec 5) (ds : BitVec 14) (xo : BitVec 2) :
    (formDS op rt ra ds xo).extractLsb' 2 14 = ds := by
  unfold formDS
  ext i hi
  rw [BitVec.getElem_extractLsb', BitVec.getLsbD_append, BitVec.getLsbD_append]
  simp only [show ¬ 2 + i < 2 by omega,
    show 2 + i - 2 < 14 by omega, if_false, if_true]
  rw [show 2 + i - 2 = i by omega, BitVec.getLsbD_eq_getElem]

@[simp] theorem formDS_extended (op : BitVec 6) (rt ra : BitVec 5) (ds : BitVec 14) (xo : BitVec 2) :
    (formDS op rt ra ds xo).extractLsb' 0 2 = xo := by
  unfold formDS
  ext i hi
  rw [BitVec.getElem_extractLsb', BitVec.getLsbD_append]
  simp only [show 0 + i < 2 by omega, if_true]
  rw [show 0 + i = i by omega, BitVec.getLsbD_eq_getElem]

@[simp] theorem formX_opcode (op : BitVec 6) (rt ra rb : BitVec 5) (xo : BitVec 10) (rc : BitVec 1) :
    (formX op rt ra rb xo rc).extractLsb' 26 6 = op := by
  unfold formX
  ext i hi
  rw [BitVec.getElem_extractLsb', BitVec.getLsbD_append, BitVec.getLsbD_append, BitVec.getLsbD_append, BitVec.getLsbD_append, BitVec.getLsbD_append]
  simp only [show ¬ 26 + i < 1 by omega,
    show ¬ 26 + i - 1 < 10 by omega,
    show ¬ 26 + i - 1 - 10 < 5 by omega,
    show ¬ 26 + i - 1 - 10 - 5 < 5 by omega,
    show ¬ 26 + i - 1 - 10 - 5 - 5 < 5 by omega, if_false]
  rw [show 26 + i - 1 - 10 - 5 - 5 - 5 = i by omega, BitVec.getLsbD_eq_getElem]

@[simp] theorem formX_target (op : BitVec 6) (rt ra rb : BitVec 5) (xo : BitVec 10) (rc : BitVec 1) :
    (formX op rt ra rb xo rc).extractLsb' 21 5 = rt := by
  unfold formX
  ext i hi
  rw [BitVec.getElem_extractLsb', BitVec.getLsbD_append, BitVec.getLsbD_append, BitVec.getLsbD_append, BitVec.getLsbD_append, BitVec.getLsbD_append]
  simp only [show ¬ 21 + i < 1 by omega,
    show ¬ 21 + i - 1 < 10 by omega,
    show ¬ 21 + i - 1 - 10 < 5 by omega,
    show ¬ 21 + i - 1 - 10 - 5 < 5 by omega,
    show 21 + i - 1 - 10 - 5 - 5 < 5 by omega, if_false, if_true]
  rw [show 21 + i - 1 - 10 - 5 - 5 = i by omega, BitVec.getLsbD_eq_getElem]

@[simp] theorem formX_base (op : BitVec 6) (rt ra rb : BitVec 5) (xo : BitVec 10) (rc : BitVec 1) :
    (formX op rt ra rb xo rc).extractLsb' 16 5 = ra := by
  unfold formX
  ext i hi
  rw [BitVec.getElem_extractLsb', BitVec.getLsbD_append, BitVec.getLsbD_append, BitVec.getLsbD_append, BitVec.getLsbD_append]
  simp only [show ¬ 16 + i < 1 by omega,
    show ¬ 16 + i - 1 < 10 by omega,
    show ¬ 16 + i - 1 - 10 < 5 by omega,
    show 16 + i - 1 - 10 - 5 < 5 by omega, if_false, if_true]
  rw [show 16 + i - 1 - 10 - 5 = i by omega, BitVec.getLsbD_eq_getElem]

@[simp] theorem formX_index (op : BitVec 6) (rt ra rb : BitVec 5) (xo : BitVec 10) (rc : BitVec 1) :
    (formX op rt ra rb xo rc).extractLsb' 11 5 = rb := by
  unfold formX
  ext i hi
  rw [BitVec.getElem_extractLsb', BitVec.getLsbD_append, BitVec.getLsbD_append, BitVec.getLsbD_append]
  simp only [show ¬ 11 + i < 1 by omega,
    show ¬ 11 + i - 1 < 10 by omega,
    show 11 + i - 1 - 10 < 5 by omega, if_false, if_true]
  rw [show 11 + i - 1 - 10 = i by omega, BitVec.getLsbD_eq_getElem]

@[simp] theorem formX_extended (op : BitVec 6) (rt ra rb : BitVec 5) (xo : BitVec 10) (rc : BitVec 1) :
    (formX op rt ra rb xo rc).extractLsb' 1 10 = xo := by
  unfold formX
  ext i hi
  rw [BitVec.getElem_extractLsb', BitVec.getLsbD_append, BitVec.getLsbD_append]
  simp only [show ¬ 1 + i < 1 by omega,
    show 1 + i - 1 < 10 by omega, if_false, if_true]
  rw [show 1 + i - 1 = i by omega, BitVec.getLsbD_eq_getElem]

@[simp] theorem formX_record (op : BitVec 6) (rt ra rb : BitVec 5) (xo : BitVec 10) (rc : BitVec 1) :
    (formX op rt ra rb xo rc).extractLsb' 0 1 = rc := by
  unfold formX
  ext i hi
  rw [BitVec.getElem_extractLsb', BitVec.getLsbD_append]
  simp only [show 0 + i < 1 by omega, if_true]
  rw [show 0 + i = i by omega, BitVec.getLsbD_eq_getElem]

/-! ## Rebuilding the word -/

theorem formD_fields (w : InstWord) :
    formD (w.extractLsb' 26 6) (w.extractLsb' 21 5) (w.extractLsb' 16 5) (w.extractLsb' 0 16) = w := by
  unfold formD
  ext i hi
  rw [← BitVec.getLsbD_eq_getElem, BitVec.getLsbD_append, BitVec.getLsbD_append, BitVec.getLsbD_append]
  simp only [BitVec.getLsbD_extractLsb', ← BitVec.getLsbD_eq_getElem]
  split
  · rw [show 0 + i = i by omega]; simp [*]
  · split
    · rw [show 16 + (i - 16) = i by omega]; simp [*]
    · split
      · rw [show 21 + (i - 16 - 5) = i by omega]; simp [*]
      · rw [show 26 + (i - 16 - 5 - 5) = i by omega]
        simp [show i - 16 - 5 - 5 < 6 by omega]

theorem formDS_fields (w : InstWord) :
    formDS (w.extractLsb' 26 6) (w.extractLsb' 21 5) (w.extractLsb' 16 5) (w.extractLsb' 2 14)
      (w.extractLsb' 0 2) = w := by
  unfold formDS
  ext i hi
  rw [← BitVec.getLsbD_eq_getElem, BitVec.getLsbD_append, BitVec.getLsbD_append, BitVec.getLsbD_append,
    BitVec.getLsbD_append]
  simp only [BitVec.getLsbD_extractLsb', ← BitVec.getLsbD_eq_getElem]
  split
  · rw [show 0 + i = i by omega]; simp [*]
  · split
    · rw [show 2 + (i - 2) = i by omega]; simp [*]
    · split
      · rw [show 16 + (i - 2 - 14) = i by omega]; simp [*]
      · split
        · rw [show 21 + (i - 2 - 14 - 5) = i by omega]; simp [*]
        · rw [show 26 + (i - 2 - 14 - 5 - 5) = i by omega]
          simp [show i - 2 - 14 - 5 - 5 < 6 by omega]

theorem formX_fields (w : InstWord) :
    formX (w.extractLsb' 26 6) (w.extractLsb' 21 5) (w.extractLsb' 16 5) (w.extractLsb' 11 5)
      (w.extractLsb' 1 10) (w.extractLsb' 0 1) = w := by
  unfold formX
  ext i hi
  rw [← BitVec.getLsbD_eq_getElem, BitVec.getLsbD_append, BitVec.getLsbD_append, BitVec.getLsbD_append,
    BitVec.getLsbD_append, BitVec.getLsbD_append]
  simp only [BitVec.getLsbD_extractLsb', ← BitVec.getLsbD_eq_getElem]
  split
  · rw [show 0 + i = i by omega]; simp [*]
  · split
    · rw [show 1 + (i - 1) = i by omega]; simp [*]
    · split
      · rw [show 11 + (i - 1 - 10) = i by omega]; simp [*]
      · split
        · rw [show 16 + (i - 1 - 10 - 5) = i by omega]; simp [*]
        · split
          · rw [show 21 + (i - 1 - 10 - 5 - 5) = i by omega]; simp [*]
          · rw [show 26 + (i - 1 - 10 - 5 - 5 - 5) = i by omega]
            simp [show i - 1 - 10 - 5 - 5 - 5 < 6 by omega]

/-- The bytes of a word are the word. -/
@[simp] theorem wordOfBytes_bytes (w : InstWord) :
    wordOfBytes (w.extractLsb' 24 8) (w.extractLsb' 16 8) (w.extractLsb' 8 8) (w.extractLsb' 0 8) = w := by
  unfold wordOfBytes
  ext i hi
  rw [← BitVec.getLsbD_eq_getElem, BitVec.getLsbD_append, BitVec.getLsbD_append, BitVec.getLsbD_append]
  simp only [BitVec.getLsbD_extractLsb', ← BitVec.getLsbD_eq_getElem]
  split
  · rw [show 0 + i = i by omega]; simp [*]
  · split
    · rw [show 8 + (i - 8) = i by omega]; simp [*]
    · split
      · rw [show 16 + (i - 8 - 8) = i by omega]; simp [*]
      · rw [show 24 + (i - 8 - 8 - 8) = i by omega]
        simp [show i - 8 - 8 - 8 < 8 by omega]

/-- The halves of an SPR number are the number (30 R94). -/
@[simp] theorem sprHigh_append_sprLow (n : SprNum) : sprHigh n ++ sprLow n = n := by
  revert n
  decide

/-- Decoding the bytes of a word, with what follows. -/
theorem decode_bytesOfWord (w : InstWord) (rest : List Byte) :
    decode (bytesOfWord w ++ rest) = (decodeWord w).map fun i => (i, rest) := by
  simp only [bytesOfWord, List.cons_append, List.nil_append, decode, wordOfBytes_bytes]
  cases decodeWord w <;> rfl

end Sys2Proof
end

