-- ==== Sys2Proof/Laws/Exec.lean ====
section
/-! SUPPORT. What each instruction does, as the shared operation it is. -/

namespace Sys2Proof.Machine

theorem exec_tdi (cond : TrapTo) (ra : Reg) (simm : BitVec 16) (s : State) :
    exec (.tdi cond ra simm) s =
      trapOn (.tdi cond ra simm) cond (s.readGpr ra) (immediateOperand simm) s := rfl
theorem exec_twi (cond : TrapTo) (ra : Reg) (simm : BitVec 16) (s : State) :
    exec (.twi cond ra simm) s =
      trapOn (.twi cond ra simm) cond (wordOperand (s.readGpr ra)) (immediateOperand simm) s := rfl
theorem exec_sc (s : State) :
    exec (.sc) s =
      execSc s := rfl
theorem exec_rfid (s : State) :
    exec (.rfid) s =
      execRfid s := rfl
theorem exec_rfi (s : State) :
    exec (.rfi) s =
      execRfi s := rfl
theorem exec_isync (s : State) :
    exec (.isync) s =
      execIsync s := rfl
theorem exec_tw (cond : TrapTo) (ra rb : Reg) (s : State) :
    exec (.tw cond ra rb) s =
      trapOn (.tw cond ra rb) cond (wordOperand (s.readGpr ra)) (wordOperand (s.readGpr rb)) s := rfl
theorem exec_td (cond : TrapTo) (ra rb : Reg) (s : State) :
    exec (.td cond ra rb) s =
      trapOn (.td cond ra rb) cond (s.readGpr ra) (s.readGpr rb) s := rfl
theorem exec_mfmsr (rd : Reg) (s : State) :
    exec (.mfmsr rd) s =
      execMfmsr rd s := rfl
theorem exec_mtmsr (rs : Reg) (s : State) :
    exec (.mtmsr rs) s =
      execMtmsr rs s := rfl
theorem exec_mtmsrd (rs : Reg) (s : State) :
    exec (.mtmsrd rs) s =
      execMtmsrd rs s := rfl
theorem exec_mfspr (rd : Reg) (spr : SprNum) (s : State) :
    exec (.mfspr rd spr) s =
      execMfspr rd spr s := rfl
theorem exec_mtspr (spr : SprNum) (rs : Reg) (s : State) :
    exec (.mtspr spr rs) s =
      execMtspr spr rs s := rfl
theorem exec_sync (s : State) :
    exec (.sync) s =
      execSync s := rfl
theorem exec_lwz (rd ra : Reg) (d : BitVec 16) (s : State) :
    exec (.lwz rd ra d) s =
      loadInt (.lwz rd ra d) 4 id rd none (s.eaD ra d) s := rfl
theorem exec_lwzu (rd ra : Reg) (d : BitVec 16) (s : State) :
    exec (.lwzu rd ra d) s =
      loadInt (.lwzu rd ra d) 4 id rd (some ra) (s.eaD ra d) s := rfl
theorem exec_stw (rs ra : Reg) (d : BitVec 16) (s : State) :
    exec (.stw rs ra d) s =
      storeInt (.stw rs ra d) 4 (s.readGpr rs) none (s.eaD ra d) s := rfl
theorem exec_stwu (rs ra : Reg) (d : BitVec 16) (s : State) :
    exec (.stwu rs ra d) s =
      storeInt (.stwu rs ra d) 4 (s.readGpr rs) (some ra) (s.eaD ra d) s := rfl
theorem exec_lhz (rd ra : Reg) (d : BitVec 16) (s : State) :
    exec (.lhz rd ra d) s =
      loadInt (.lhz rd ra d) 2 id rd none (s.eaD ra d) s := rfl
theorem exec_lhzu (rd ra : Reg) (d : BitVec 16) (s : State) :
    exec (.lhzu rd ra d) s =
      loadInt (.lhzu rd ra d) 2 id rd (some ra) (s.eaD ra d) s := rfl
theorem exec_lha (rd ra : Reg) (d : BitVec 16) (s : State) :
    exec (.lha rd ra d) s =
      loadInt (.lha rd ra d) 2 signHalf rd none (s.eaD ra d) s := rfl
theorem exec_lhau (rd ra : Reg) (d : BitVec 16) (s : State) :
    exec (.lhau rd ra d) s =
      loadInt (.lhau rd ra d) 2 signHalf rd (some ra) (s.eaD ra d) s := rfl
theorem exec_sth (rs ra : Reg) (d : BitVec 16) (s : State) :
    exec (.sth rs ra d) s =
      storeInt (.sth rs ra d) 2 (s.readGpr rs) none (s.eaD ra d) s := rfl
theorem exec_sthu (rs ra : Reg) (d : BitVec 16) (s : State) :
    exec (.sthu rs ra d) s =
      storeInt (.sthu rs ra d) 2 (s.readGpr rs) (some ra) (s.eaD ra d) s := rfl
theorem exec_lmw (rd ra : Reg) (d : BitVec 16) (s : State) :
    exec (.lmw rd ra d) s =
      loadMultiple (.lmw rd ra d) rd (s.eaD ra d) s := rfl
theorem exec_stmw (rs ra : Reg) (d : BitVec 16) (s : State) :
    exec (.stmw rs ra d) s =
      storeMultiple (.stmw rs ra d) rs (s.eaD ra d) s := rfl
theorem exec_lfs (frd : FReg) (ra : Reg) (d : BitVec 16) (s : State) :
    exec (.lfs frd ra d) s =
      loadFloat (.lfs frd ra d) 4 (fun v => doubleOfSingle (v.setWidth 32)) frd none (s.eaD ra d) s := rfl
theorem exec_lfsu (frd : FReg) (ra : Reg) (d : BitVec 16) (s : State) :
    exec (.lfsu frd ra d) s =
      loadFloat (.lfsu frd ra d) 4 (fun v => doubleOfSingle (v.setWidth 32)) frd (some ra) (s.eaD ra d) s := rfl
theorem exec_lfd (frd : FReg) (ra : Reg) (d : BitVec 16) (s : State) :
    exec (.lfd frd ra d) s =
      loadFloat (.lfd frd ra d) 8 id frd none (s.eaD ra d) s := rfl
theorem exec_lfdu (frd : FReg) (ra : Reg) (d : BitVec 16) (s : State) :
    exec (.lfdu frd ra d) s =
      loadFloat (.lfdu frd ra d) 8 id frd (some ra) (s.eaD ra d) s := rfl
theorem exec_stfs (frs : FReg) (ra : Reg) (d : BitVec 16) (s : State) :
    exec (.stfs frs ra d) s =
      storeFloat (.stfs frs ra d) 4 ((s.singleOfDouble (s.readFpr frs)).setWidth 64) none (s.eaD ra d) s := rfl
theorem exec_stfsu (frs : FReg) (ra : Reg) (d : BitVec 16) (s : State) :
    exec (.stfsu frs ra d) s =
      storeFloat (.stfsu frs ra d) 4 ((s.singleOfDouble (s.readFpr frs)).setWidth 64) (some ra) (s.eaD ra d) s := rfl
theorem exec_stfd (frs : FReg) (ra : Reg) (d : BitVec 16) (s : State) :
    exec (.stfd frs ra d) s =
      storeFloat (.stfd frs ra d) 8 (s.readFpr frs) none (s.eaD ra d) s := rfl
theorem exec_stfdu (frs : FReg) (ra : Reg) (d : BitVec 16) (s : State) :
    exec (.stfdu frs ra d) s =
      storeFloat (.stfdu frs ra d) 8 (s.readFpr frs) (some ra) (s.eaD ra d) s := rfl
theorem exec_ld (rd ra : Reg) (ds : BitVec 14) (s : State) :
    exec (.ld rd ra ds) s =
      loadInt (.ld rd ra ds) 8 id rd none (s.eaDS ra ds) s := rfl
theorem exec_ldu (rd ra : Reg) (ds : BitVec 14) (s : State) :
    exec (.ldu rd ra ds) s =
      loadInt (.ldu rd ra ds) 8 id rd (some ra) (s.eaDS ra ds) s := rfl
theorem exec_lwa (rd ra : Reg) (ds : BitVec 14) (s : State) :
    exec (.lwa rd ra ds) s =
      loadInt (.lwa rd ra ds) 4 signWord rd none (s.eaDS ra ds) s := rfl
theorem exec_std (rs ra : Reg) (ds : BitVec 14) (s : State) :
    exec (.std rs ra ds) s =
      storeInt (.std rs ra ds) 8 (s.readGpr rs) none (s.eaDS ra ds) s := rfl
theorem exec_stdu (rs ra : Reg) (ds : BitVec 14) (s : State) :
    exec (.stdu rs ra ds) s =
      storeInt (.stdu rs ra ds) 8 (s.readGpr rs) (some ra) (s.eaDS ra ds) s := rfl
theorem exec_lwarx (rd ra rb : Reg) (s : State) :
    exec (.lwarx rd ra rb) s =
      loadReserve (.lwarx rd ra rb) 4 rd (s.eaX ra rb) s := rfl
theorem exec_ldarx (rd ra rb : Reg) (s : State) :
    exec (.ldarx rd ra rb) s =
      loadReserve (.ldarx rd ra rb) 8 rd (s.eaX ra rb) s := rfl
theorem exec_ldx (rd ra rb : Reg) (s : State) :
    exec (.ldx rd ra rb) s =
      loadInt (.ldx rd ra rb) 8 id rd none (s.eaX ra rb) s := rfl
theorem exec_ldux (rd ra rb : Reg) (s : State) :
    exec (.ldux rd ra rb) s =
      loadInt (.ldux rd ra rb) 8 id rd (some ra) (s.eaX ra rb) s := rfl
theorem exec_stdx (rs ra rb : Reg) (s : State) :
    exec (.stdx rs ra rb) s =
      storeInt (.stdx rs ra rb) 8 (s.readGpr rs) none (s.eaX ra rb) s := rfl
theorem exec_stdux (rs ra rb : Reg) (s : State) :
    exec (.stdux rs ra rb) s =
      storeInt (.stdux rs ra rb) 8 (s.readGpr rs) (some ra) (s.eaX ra rb) s := rfl
theorem exec_lwax (rd ra rb : Reg) (s : State) :
    exec (.lwax rd ra rb) s =
      loadInt (.lwax rd ra rb) 4 signWord rd none (s.eaX ra rb) s := rfl
theorem exec_lwaux (rd ra rb : Reg) (s : State) :
    exec (.lwaux rd ra rb) s =
      loadInt (.lwaux rd ra rb) 4 signWord rd (some ra) (s.eaX ra rb) s := rfl
theorem exec_lswx (rd ra rb : Reg) (s : State) :
    exec (.lswx rd ra rb) s =
      if stringFormValid rd ra rb (xerCount s.xer) then
    loadString (.lswx rd ra rb) rd (xerCount s.xer) (s.eaX ra rb) s
  else raise (.program .illegal false) s := rfl
theorem exec_lswi (rd ra : Reg) (nb : BitVec 5) (s : State) :
    exec (.lswi rd ra nb) s =
      loadString (.lswi rd ra nb) rd (immediateCount nb) (s.eaBase ra) s := rfl
theorem exec_stswx (rs ra rb : Reg) (s : State) :
    exec (.stswx rs ra rb) s =
      storeString (.stswx rs ra rb) rs (xerCount s.xer) (s.eaX ra rb) s := rfl
theorem exec_stswi (rs ra : Reg) (nb : BitVec 5) (s : State) :
    exec (.stswi rs ra nb) s =
      storeString (.stswi rs ra nb) rs (immediateCount nb) (s.eaBase ra) s := rfl
theorem exec_stwcxDot (rs ra rb : Reg) (s : State) :
    exec (.stwcxDot rs ra rb) s =
      storeConditional (.stwcxDot rs ra rb) 4 (s.readGpr rs) (s.eaX ra rb) s := rfl
theorem exec_stdcxDot (rs ra rb : Reg) (s : State) :
    exec (.stdcxDot rs ra rb) s =
      storeConditional (.stdcxDot rs ra rb) 8 (s.readGpr rs) (s.eaX ra rb) s := rfl
theorem exec_lwbrx (rd ra rb : Reg) (s : State) :
    exec (.lwbrx rd ra rb) s =
      loadInt (.lwbrx rd ra rb) 4 (byteReverse 4) rd none (s.eaX ra rb) s := rfl
theorem exec_stwbrx (rs ra rb : Reg) (s : State) :
    exec (.stwbrx rs ra rb) s =
      storeInt (.stwbrx rs ra rb) 4 (byteReverse 4 (s.readGpr rs)) none (s.eaX ra rb) s := rfl
theorem exec_lhbrx (rd ra rb : Reg) (s : State) :
    exec (.lhbrx rd ra rb) s =
      loadInt (.lhbrx rd ra rb) 2 (byteReverse 2) rd none (s.eaX ra rb) s := rfl
theorem exec_sthbrx (rs ra rb : Reg) (s : State) :
    exec (.sthbrx rs ra rb) s =
      storeInt (.sthbrx rs ra rb) 2 (byteReverse 2 (s.readGpr rs)) none (s.eaX ra rb) s := rfl
theorem exec_eciwx (rd ra rb : Reg) (s : State) :
    exec (.eciwx rd ra rb) s =
      externalIn (.eciwx rd ra rb) rd (s.eaX ra rb) s := rfl
theorem exec_ecowx (rs ra rb : Reg) (s : State) :
    exec (.ecowx rs ra rb) s =
      externalOut (.ecowx rs ra rb) (s.readGpr rs) (s.eaX ra rb) s := rfl
theorem exec_dcbz (ra rb : Reg) (s : State) :
    exec (.dcbz ra rb) s =
      zeroBlock (.dcbz ra rb) (s.eaX ra rb) s := rfl
theorem exec_lwzx (rd ra rb : Reg) (s : State) :
    exec (.lwzx rd ra rb) s =
      loadInt (.lwzx rd ra rb) 4 id rd none (s.eaX ra rb) s := rfl
theorem exec_lwzux (rd ra rb : Reg) (s : State) :
    exec (.lwzux rd ra rb) s =
      loadInt (.lwzux rd ra rb) 4 id rd (some ra) (s.eaX ra rb) s := rfl
theorem exec_stwx (rs ra rb : Reg) (s : State) :
    exec (.stwx rs ra rb) s =
      storeInt (.stwx rs ra rb) 4 (s.readGpr rs) none (s.eaX ra rb) s := rfl
theorem exec_stwux (rs ra rb : Reg) (s : State) :
    exec (.stwux rs ra rb) s =
      storeInt (.stwux rs ra rb) 4 (s.readGpr rs) (some ra) (s.eaX ra rb) s := rfl
theorem exec_lhzx (rd ra rb : Reg) (s : State) :
    exec (.lhzx rd ra rb) s =
      loadInt (.lhzx rd ra rb) 2 id rd none (s.eaX ra rb) s := rfl
theorem exec_lhzux (rd ra rb : Reg) (s : State) :
    exec (.lhzux rd ra rb) s =
      loadInt (.lhzux rd ra rb) 2 id rd (some ra) (s.eaX ra rb) s := rfl
theorem exec_lhax (rd ra rb : Reg) (s : State) :
    exec (.lhax rd ra rb) s =
      loadInt (.lhax rd ra rb) 2 signHalf rd none (s.eaX ra rb) s := rfl
theorem exec_lhaux (rd ra rb : Reg) (s : State) :
    exec (.lhaux rd ra rb) s =
      loadInt (.lhaux rd ra rb) 2 signHalf rd (some ra) (s.eaX ra rb) s := rfl
theorem exec_sthx (rs ra rb : Reg) (s : State) :
    exec (.sthx rs ra rb) s =
      storeInt (.sthx rs ra rb) 2 (s.readGpr rs) none (s.eaX ra rb) s := rfl
theorem exec_sthux (rs ra rb : Reg) (s : State) :
    exec (.sthux rs ra rb) s =
      storeInt (.sthux rs ra rb) 2 (s.readGpr rs) (some ra) (s.eaX ra rb) s := rfl
theorem exec_lfsx (frd : FReg) (ra rb : Reg) (s : State) :
    exec (.lfsx frd ra rb) s =
      loadFloat (.lfsx frd ra rb) 4 (fun v => doubleOfSingle (v.setWidth 32)) frd none (s.eaX ra rb) s := rfl
theorem exec_lfsux (frd : FReg) (ra rb : Reg) (s : State) :
    exec (.lfsux frd ra rb) s =
      loadFloat (.lfsux frd ra rb) 4 (fun v => doubleOfSingle (v.setWidth 32)) frd (some ra) (s.eaX ra rb) s := rfl
theorem exec_lfdx (frd : FReg) (ra rb : Reg) (s : State) :
    exec (.lfdx frd ra rb) s =
      loadFloat (.lfdx frd ra rb) 8 id frd none (s.eaX ra rb) s := rfl
theorem exec_lfdux (frd : FReg) (ra rb : Reg) (s : State) :
    exec (.lfdux frd ra rb) s =
      loadFloat (.lfdux frd ra rb) 8 id frd (some ra) (s.eaX ra rb) s := rfl
theorem exec_stfsx (frs : FReg) (ra rb : Reg) (s : State) :
    exec (.stfsx frs ra rb) s =
      storeFloat (.stfsx frs ra rb) 4 ((s.singleOfDouble (s.readFpr frs)).setWidth 64) none (s.eaX ra rb) s := rfl
theorem exec_stfsux (frs : FReg) (ra rb : Reg) (s : State) :
    exec (.stfsux frs ra rb) s =
      storeFloat (.stfsux frs ra rb) 4 ((s.singleOfDouble (s.readFpr frs)).setWidth 64) (some ra) (s.eaX ra rb) s := rfl
theorem exec_stfdx (frs : FReg) (ra rb : Reg) (s : State) :
    exec (.stfdx frs ra rb) s =
      storeFloat (.stfdx frs ra rb) 8 (s.readFpr frs) none (s.eaX ra rb) s := rfl
theorem exec_stfdux (frs : FReg) (ra rb : Reg) (s : State) :
    exec (.stfdux frs ra rb) s =
      storeFloat (.stfdux frs ra rb) 8 (s.readFpr frs) (some ra) (s.eaX ra rb) s := rfl
theorem exec_stfiwx (frs : FReg) (ra rb : Reg) (s : State) :
    exec (.stfiwx frs ra rb) s =
      storeFloat (.stfiwx frs ra rb) 4 (s.readFpr frs) none (s.eaX ra rb) s := rfl
theorem exec_lbz (rd ra : Reg) (d : BitVec 16) (s : State) :
    exec (.lbz rd ra d) s =
      loadInt (.lbz rd ra d) 1 id rd none (s.eaD ra d) s := rfl
theorem exec_lbzu (rd ra : Reg) (d : BitVec 16) (s : State) :
    exec (.lbzu rd ra d) s =
      loadInt (.lbzu rd ra d) 1 id rd (some ra) (s.eaD ra d) s := rfl
theorem exec_stb (rs ra : Reg) (d : BitVec 16) (s : State) :
    exec (.stb rs ra d) s =
      storeInt (.stb rs ra d) 1 (s.readGpr rs) none (s.eaD ra d) s := rfl
theorem exec_stbu (rs ra : Reg) (d : BitVec 16) (s : State) :
    exec (.stbu rs ra d) s =
      storeInt (.stbu rs ra d) 1 (s.readGpr rs) (some ra) (s.eaD ra d) s := rfl
theorem exec_lbzx (rd ra rb : Reg) (s : State) :
    exec (.lbzx rd ra rb) s =
      loadInt (.lbzx rd ra rb) 1 id rd none (s.eaX ra rb) s := rfl
theorem exec_lbzux (rd ra rb : Reg) (s : State) :
    exec (.lbzux rd ra rb) s =
      loadInt (.lbzux rd ra rb) 1 id rd (some ra) (s.eaX ra rb) s := rfl
theorem exec_stbx (rs ra rb : Reg) (s : State) :
    exec (.stbx rs ra rb) s =
      storeInt (.stbx rs ra rb) 1 (s.readGpr rs) none (s.eaX ra rb) s := rfl
theorem exec_stbux (rs ra rb : Reg) (s : State) :
    exec (.stbux rs ra rb) s =
      storeInt (.stbux rs ra rb) 1 (s.readGpr rs) (some ra) (s.eaX ra rb) s := rfl
theorem exec_icbi (ra rb : Reg) (s : State) :
    exec (.icbi ra rb) s =
      cacheOp (.icbi ra rb) false (s.eaX ra rb) s := rfl
theorem exec_dcbi (ra rb : Reg) (s : State) :
    exec (.dcbi ra rb) s =
      cacheOp (.dcbi ra rb) true (s.eaX ra rb) s := rfl
theorem exec_dcbst (ra rb : Reg) (s : State) :
    exec (.dcbst ra rb) s =
      cacheOp (.dcbst ra rb) false (s.eaX ra rb) s := rfl
theorem exec_dcbf (ra rb : Reg) (s : State) :
    exec (.dcbf ra rb) s =
      cacheOp (.dcbf ra rb) false (s.eaX ra rb) s := rfl

end Sys2Proof.Machine
end

