-- ==== Sys2Proof/Laws/Memory.lean ====
section
/-! SUPPORT. The laws of memory: canonical form is kept, and a read gives what was last written. -/

namespace Sys2Proof.Machine

theorem Memory.wfFrom_cons {lo k : Nat} {v : Byte} {rest : Memory} :
    Memory.wfFrom lo ((k, v) :: rest) = true ↔
      ((lo ≤ k ∧ k < 2 ^ 64) ∧ v ≠ unlistedByte) ∧ Memory.wfFrom (k + 1) rest = true := by
  simp only [Memory.wfFrom, Bool.and_eq_true, decide_eq_true_eq, bne_iff_ne]

theorem Memory.wfFrom_mono {lo lo' : Nat} {m : Memory} (h : Memory.wfFrom lo m = true)
    (hl : lo' ≤ lo) : Memory.wfFrom lo' m = true := by
  cases m with
  | nil => rfl
  | cons c rest =>
    obtain ⟨k, v⟩ := c
    rw [Memory.wfFrom_cons] at h ⊢
    exact ⟨⟨⟨by omega, h.1.1.2⟩, h.1.2⟩, h.2⟩

/-- Below the first address a canonical memory may list, a byte reads as unlisted. -/
theorem Memory.read_of_lt {lo : Nat} {m : Memory} (h : Memory.wfFrom lo m = true) {a : Word}
    (ha : a.toNat < lo) : Memory.read m a = unlistedByte := by
  induction m generalizing lo with
  | nil => rfl
  | cons c rest ih =>
    obtain ⟨k, v⟩ := c
    rw [Memory.wfFrom_cons] at h
    rw [Memory.read, if_neg (by omega)]
    exact ih h.2 (by omega)

theorem Memory.write_wfFrom {lo : Nat} {m : Memory} (h : Memory.wfFrom lo m = true) (a : Word)
    (v : Byte) (ha : lo ≤ a.toNat) : Memory.wfFrom lo (Memory.write m a v) = true := by
  have hlt : a.toNat < 2 ^ 64 := a.isLt
  induction m generalizing lo with
  | nil =>
    unfold Memory.write
    split
    · rfl
    · simp_all [Memory.wfFrom]
  | cons c rest ih =>
    obtain ⟨k, b⟩ := c
    rw [Memory.wfFrom_cons] at h
    unfold Memory.write
    split
    · split
      · exact Memory.wfFrom_cons.2 h
      · rw [Memory.wfFrom_cons, Memory.wfFrom_cons]
        exact ⟨⟨⟨ha, hlt⟩, ‹¬v = unlistedByte›⟩, ⟨⟨by omega, h.1.1.2⟩, h.1.2⟩, h.2⟩
    · split
      · split
        · exact Memory.wfFrom_mono h.2 (by omega)
        · rw [Memory.wfFrom_cons]
          exact ⟨⟨h.1.1, ‹¬v = unlistedByte›⟩, h.2⟩
      · rw [Memory.wfFrom_cons]
        exact ⟨h.1, ih h.2 (by omega)⟩

/-- A write keeps the canonical form. -/
theorem Memory.write_wf {m : Memory} (h : m.wf = true) (a : Word) (v : Byte) :
    (Memory.write m a v).wf = true := Memory.write_wfFrom h a v (Nat.zero_le _)

/-- A write leaves every other byte alone. -/
theorem Memory.read_write_other (m : Memory) {a b : Word} (v : Byte) (h : a ≠ b) :
    Memory.read (Memory.write m a v) b = Memory.read m b := by
  have hn : a.toNat ≠ b.toNat := fun e => h (BitVec.eq_of_toNat_eq e)
  induction m with
  | nil =>
    unfold Memory.write
    split
    · rfl
    · simp [Memory.read, hn]
  | cons c rest ih =>
    obtain ⟨k, w⟩ := c
    unfold Memory.write
    split
    · split
      · rfl
      · rw [Memory.read, if_neg hn]
    · split
      · have hk : k ≠ b.toNat := by omega
        split
        · rw [Memory.read, if_neg hk]
        · simp [Memory.read, hk]
      · simp [Memory.read, ih]

theorem Memory.read_write_same_from {lo : Nat} {m : Memory} (h : Memory.wfFrom lo m = true) (a : Word)
    (v : Byte) : Memory.read (Memory.write m a v) a = v := by
  induction m generalizing lo with
  | nil =>
    unfold Memory.write
    split
    · simp_all [Memory.read]
    · simp [Memory.read]
  | cons c rest ih =>
    obtain ⟨k, w⟩ := c
    rw [Memory.wfFrom_cons] at h
    unfold Memory.write
    split
    · split
      · have := Memory.read_of_lt (a := a) (lo := k) (m := (k, w) :: rest)
          (Memory.wfFrom_cons.2 ⟨⟨⟨Nat.le_refl k, h.1.1.2⟩, h.1.2⟩, h.2⟩) ‹_›
        simp_all
      · simp [Memory.read]
    · split
      · split
        · have := Memory.read_of_lt (a := a) h.2 (by omega)
          simp_all
        · simp [Memory.read, *]
      · rw [Memory.read, if_neg (by omega)]
        exact ih h.2

/-- A byte written reads back. -/
theorem Memory.read_write_same {m : Memory} (h : m.wf = true) (a : Word) (v : Byte) :
    Memory.read (Memory.write m a v) a = v := Memory.read_write_same_from h a v

/-- Stores keep the canonical form. -/
theorem writeBytes_wf {m : Memory} (h : m.wf = true) (l : List (Word × Byte)) :
    (writeBytes m l).wf = true := by
  induction l generalizing m with
  | nil => exact h
  | cons p rest ih => exact ih (Memory.write_wf h p.1 p.2)

/-- Stores leave alone every byte at which none is made. -/
theorem read_writeBytes_other (m : Memory) (l : List (Word × Byte)) (b : Word)
    (h : ∀ p ∈ l, p.1 ≠ b) : Memory.read (writeBytes m l) b = Memory.read m b := by
  induction l generalizing m with
  | nil => rfl
  | cons p rest ih =>
    rw [writeBytes, ih _ fun q hq => h q (List.mem_cons_of_mem _ hq),
      Memory.read_write_other _ _ (h p List.mem_cons_self)]

/-- The last store to a byte is what it reads as. -/
theorem read_writeBytes_last {m : Memory} (h : m.wf = true) (l l' : List (Word × Byte)) (a : Word)
    (v : Byte) (hl : ∀ p ∈ l', p.1 ≠ a) :
    Memory.read (writeBytes m (l ++ (a, v) :: l')) a = v := by
  induction l generalizing m with
  | nil =>
    rw [List.nil_append, writeBytes, read_writeBytes_other _ _ _ hl, Memory.read_write_same h]
  | cons p rest ih => exact ih (Memory.write_wf h p.1 p.2)

/-- Two memories in canonical form that read alike are equal. -/
theorem Memory.ext_of_read {lo : Nat} {m m' : Memory} (h : Memory.wfFrom lo m = true)
    (h' : Memory.wfFrom lo m' = true) (hr : ∀ a : Word, Memory.read m a = Memory.read m' a) :
    m = m' := by
  induction m generalizing lo m' with
  | nil =>
    cases m' with
    | nil => rfl
    | cons c rest =>
      obtain ⟨k, v⟩ := c
      rw [Memory.wfFrom_cons] at h'
      have := hr (BitVec.ofNat 64 k)
      have hk : (BitVec.ofNat 64 k).toNat = k := by simp; omega
      rw [Memory.read, Memory.read, if_pos hk.symm] at this
      exact absurd this.symm h'.1.2
  | cons c rest ih =>
    obtain ⟨k, v⟩ := c
    have hw := h
    rw [Memory.wfFrom_cons] at h
    have hk : (BitVec.ofNat 64 k).toNat = k := by simp; omega
    have hkv := hr (BitVec.ofNat 64 k)
    rw [Memory.read, if_pos hk.symm] at hkv
    cases m' with
    | nil => exact absurd hkv h.1.2
    | cons c' rest' =>
      obtain ⟨k', v'⟩ := c'
      have hw' := h'
      rw [Memory.wfFrom_cons] at h'
      have hk' : (BitVec.ofNat 64 k').toNat = k' := by simp; omega
      rcases Nat.lt_trichotomy k k' with hlt | heq | hgt
      · rw [Memory.read_of_lt (lo := k') (m := (k', v') :: rest')
          (Memory.wfFrom_cons.2 ⟨⟨⟨Nat.le_refl k', h'.1.1.2⟩, h'.1.2⟩, h'.2⟩) (by omega)] at hkv
        exact absurd hkv h.1.2
      · subst heq
        rw [Memory.read, if_pos hk.symm] at hkv
        subst hkv
        congr 1
        refine ih h.2 h'.2 fun a => ?_
        by_cases ha : a.toNat = k
        · rw [Memory.read_of_lt h.2 (by omega), Memory.read_of_lt h'.2 (by omega)]
        · have := hr a
          rwa [Memory.read, Memory.read, if_neg (Ne.symm ha), if_neg (Ne.symm ha)] at this
      · have := hr (BitVec.ofNat 64 k')
        rw [Memory.read_of_lt (lo := k) (m := (k, v) :: rest)
          (Memory.wfFrom_cons.2 ⟨⟨⟨Nat.le_refl k, h.1.1.2⟩, h.1.2⟩, h.2⟩) (by omega), Memory.read, if_pos hk'.symm] at this
        exact absurd this.symm h'.1.2

end Sys2Proof.Machine
end

