-- ==== Sys2Proof/Laws/State.lean ====
section
/-! SUPPORT. What each update of the state leaves in each field, one lemma per field and update, so that
no proof unfolds a record update. -/

namespace Sys2Proof.Machine

/-! ### State.setGpr -/

@[simp] theorem State.setGpr_cfg (s : State) (r : Reg) (v : Word) :
    (s.setGpr r v).cfg = s.cfg := rfl
@[simp] theorem State.setGpr_gpr (s : State) (r : Reg) (v : Word) :
    (s.setGpr r v).gpr = s.gpr.set r.toNat (truncXlen s.cfg v) r.isLt := rfl
@[simp] theorem State.setGpr_fpr (s : State) (r : Reg) (v : Word) :
    (s.setGpr r v).fpr = s.fpr := rfl
@[simp] theorem State.setGpr_nia (s : State) (r : Reg) (v : Word) :
    (s.setGpr r v).nia = s.nia := rfl
@[simp] theorem State.setGpr_cia (s : State) (r : Reg) (v : Word) :
    (s.setGpr r v).cia = s.cia := rfl
@[simp] theorem State.setGpr_msr (s : State) (r : Reg) (v : Word) :
    (s.setGpr r v).msr = s.msr := rfl
@[simp] theorem State.setGpr_window (s : State) (r : Reg) (v : Word) :
    (s.setGpr r v).window = s.window := rfl
@[simp] theorem State.setGpr_srr0 (s : State) (r : Reg) (v : Word) :
    (s.setGpr r v).srr0 = s.srr0 := rfl
@[simp] theorem State.setGpr_srr1 (s : State) (r : Reg) (v : Word) :
    (s.setGpr r v).srr1 = s.srr1 := rfl
@[simp] theorem State.setGpr_dsisr (s : State) (r : Reg) (v : Word) :
    (s.setGpr r v).dsisr = s.dsisr := rfl
@[simp] theorem State.setGpr_dar (s : State) (r : Reg) (v : Word) :
    (s.setGpr r v).dar = s.dar := rfl
@[simp] theorem State.setGpr_dec (s : State) (r : Reg) (v : Word) :
    (s.setGpr r v).dec = s.dec := rfl
@[simp] theorem State.setGpr_decPending (s : State) (r : Reg) (v : Word) :
    (s.setGpr r v).decPending = s.decPending := rfl
@[simp] theorem State.setGpr_tickCount (s : State) (r : Reg) (v : Word) :
    (s.setGpr r v).tickCount = s.tickCount := rfl
@[simp] theorem State.setGpr_cr (s : State) (r : Reg) (v : Word) :
    (s.setGpr r v).cr = s.cr := rfl
@[simp] theorem State.setGpr_xer (s : State) (r : Reg) (v : Word) :
    (s.setGpr r v).xer = s.xer := rfl
@[simp] theorem State.setGpr_lr (s : State) (r : Reg) (v : Word) :
    (s.setGpr r v).lr = s.lr := rfl
@[simp] theorem State.setGpr_ctr (s : State) (r : Reg) (v : Word) :
    (s.setGpr r v).ctr = s.ctr := rfl
@[simp] theorem State.setGpr_fex (s : State) (r : Reg) (v : Word) :
    (s.setGpr r v).fex = s.fex := rfl
@[simp] theorem State.setGpr_ear (s : State) (r : Reg) (v : Word) :
    (s.setGpr r v).ear = s.ear := rfl
@[simp] theorem State.setGpr_dabr (s : State) (r : Reg) (v : Word) :
    (s.setGpr r v).dabr = s.dabr := rfl
@[simp] theorem State.setGpr_reservation (s : State) (r : Reg) (v : Word) :
    (s.setGpr r v).reservation = s.reservation := rfl
@[simp] theorem State.setGpr_extSignal (s : State) (r : Reg) (v : Word) :
    (s.setGpr r v).extSignal = s.extSignal := rfl
@[simp] theorem State.setGpr_sresetReq (s : State) (r : Reg) (v : Word) :
    (s.setGpr r v).sresetReq = s.sresetReq := rfl
@[simp] theorem State.setGpr_sresetLost (s : State) (r : Reg) (v : Word) :
    (s.setGpr r v).sresetLost = s.sresetLost := rfl
@[simp] theorem State.setGpr_mcheckReq (s : State) (r : Reg) (v : Word) :
    (s.setGpr r v).mcheckReq = s.mcheckReq := rfl
@[simp] theorem State.setGpr_mcheckLost (s : State) (r : Reg) (v : Word) :
    (s.setGpr r v).mcheckLost = s.mcheckLost := rfl
@[simp] theorem State.setGpr_checkstop (s : State) (r : Reg) (v : Word) :
    (s.setGpr r v).checkstop = s.checkstop := rfl
@[simp] theorem State.setGpr_mem (s : State) (r : Reg) (v : Word) :
    (s.setGpr r v).mem = s.mem := rfl
@[simp] theorem State.setGpr_extOut (s : State) (r : Reg) (v : Word) :
    (s.setGpr r v).extOut = s.extOut := rfl
@[simp] theorem State.setGpr_env (s : State) (r : Reg) (v : Word) :
    (s.setGpr r v).env = s.env := rfl
@[simp] theorem State.setGpr_draws (s : State) (r : Reg) (v : Word) :
    (s.setGpr r v).draws = s.draws := rfl
@[simp] theorem State.setGpr_taken (s : State) (r : Reg) (v : Word) :
    (s.setGpr r v).taken = s.taken := rfl

/-! ### State.setFpr -/

@[simp] theorem State.setFpr_cfg (s : State) (r : FReg) (v : Word) :
    (s.setFpr r v).cfg = s.cfg := rfl
@[simp] theorem State.setFpr_gpr (s : State) (r : FReg) (v : Word) :
    (s.setFpr r v).gpr = s.gpr := rfl
@[simp] theorem State.setFpr_fpr (s : State) (r : FReg) (v : Word) :
    (s.setFpr r v).fpr = s.fpr.set r.toNat v r.isLt := rfl
@[simp] theorem State.setFpr_nia (s : State) (r : FReg) (v : Word) :
    (s.setFpr r v).nia = s.nia := rfl
@[simp] theorem State.setFpr_cia (s : State) (r : FReg) (v : Word) :
    (s.setFpr r v).cia = s.cia := rfl
@[simp] theorem State.setFpr_msr (s : State) (r : FReg) (v : Word) :
    (s.setFpr r v).msr = s.msr := rfl
@[simp] theorem State.setFpr_window (s : State) (r : FReg) (v : Word) :
    (s.setFpr r v).window = s.window := rfl
@[simp] theorem State.setFpr_srr0 (s : State) (r : FReg) (v : Word) :
    (s.setFpr r v).srr0 = s.srr0 := rfl
@[simp] theorem State.setFpr_srr1 (s : State) (r : FReg) (v : Word) :
    (s.setFpr r v).srr1 = s.srr1 := rfl
@[simp] theorem State.setFpr_dsisr (s : State) (r : FReg) (v : Word) :
    (s.setFpr r v).dsisr = s.dsisr := rfl
@[simp] theorem State.setFpr_dar (s : State) (r : FReg) (v : Word) :
    (s.setFpr r v).dar = s.dar := rfl
@[simp] theorem State.setFpr_dec (s : State) (r : FReg) (v : Word) :
    (s.setFpr r v).dec = s.dec := rfl
@[simp] theorem State.setFpr_decPending (s : State) (r : FReg) (v : Word) :
    (s.setFpr r v).decPending = s.decPending := rfl
@[simp] theorem State.setFpr_tickCount (s : State) (r : FReg) (v : Word) :
    (s.setFpr r v).tickCount = s.tickCount := rfl
@[simp] theorem State.setFpr_cr (s : State) (r : FReg) (v : Word) :
    (s.setFpr r v).cr = s.cr := rfl
@[simp] theorem State.setFpr_xer (s : State) (r : FReg) (v : Word) :
    (s.setFpr r v).xer = s.xer := rfl
@[simp] theorem State.setFpr_lr (s : State) (r : FReg) (v : Word) :
    (s.setFpr r v).lr = s.lr := rfl
@[simp] theorem State.setFpr_ctr (s : State) (r : FReg) (v : Word) :
    (s.setFpr r v).ctr = s.ctr := rfl
@[simp] theorem State.setFpr_fex (s : State) (r : FReg) (v : Word) :
    (s.setFpr r v).fex = s.fex := rfl
@[simp] theorem State.setFpr_ear (s : State) (r : FReg) (v : Word) :
    (s.setFpr r v).ear = s.ear := rfl
@[simp] theorem State.setFpr_dabr (s : State) (r : FReg) (v : Word) :
    (s.setFpr r v).dabr = s.dabr := rfl
@[simp] theorem State.setFpr_reservation (s : State) (r : FReg) (v : Word) :
    (s.setFpr r v).reservation = s.reservation := rfl
@[simp] theorem State.setFpr_extSignal (s : State) (r : FReg) (v : Word) :
    (s.setFpr r v).extSignal = s.extSignal := rfl
@[simp] theorem State.setFpr_sresetReq (s : State) (r : FReg) (v : Word) :
    (s.setFpr r v).sresetReq = s.sresetReq := rfl
@[simp] theorem State.setFpr_sresetLost (s : State) (r : FReg) (v : Word) :
    (s.setFpr r v).sresetLost = s.sresetLost := rfl
@[simp] theorem State.setFpr_mcheckReq (s : State) (r : FReg) (v : Word) :
    (s.setFpr r v).mcheckReq = s.mcheckReq := rfl
@[simp] theorem State.setFpr_mcheckLost (s : State) (r : FReg) (v : Word) :
    (s.setFpr r v).mcheckLost = s.mcheckLost := rfl
@[simp] theorem State.setFpr_checkstop (s : State) (r : FReg) (v : Word) :
    (s.setFpr r v).checkstop = s.checkstop := rfl
@[simp] theorem State.setFpr_mem (s : State) (r : FReg) (v : Word) :
    (s.setFpr r v).mem = s.mem := rfl
@[simp] theorem State.setFpr_extOut (s : State) (r : FReg) (v : Word) :
    (s.setFpr r v).extOut = s.extOut := rfl
@[simp] theorem State.setFpr_env (s : State) (r : FReg) (v : Word) :
    (s.setFpr r v).env = s.env := rfl
@[simp] theorem State.setFpr_draws (s : State) (r : FReg) (v : Word) :
    (s.setFpr r v).draws = s.draws := rfl
@[simp] theorem State.setFpr_taken (s : State) (r : FReg) (v : Word) :
    (s.setFpr r v).taken = s.taken := rfl

/-! ### State.setDec -/

@[simp] theorem State.setDec_cfg (s : State) (v : BitVec 32) :
    (s.setDec v).cfg = s.cfg := rfl
@[simp] theorem State.setDec_gpr (s : State) (v : BitVec 32) :
    (s.setDec v).gpr = s.gpr := rfl
@[simp] theorem State.setDec_fpr (s : State) (v : BitVec 32) :
    (s.setDec v).fpr = s.fpr := rfl
@[simp] theorem State.setDec_nia (s : State) (v : BitVec 32) :
    (s.setDec v).nia = s.nia := rfl
@[simp] theorem State.setDec_cia (s : State) (v : BitVec 32) :
    (s.setDec v).cia = s.cia := rfl
@[simp] theorem State.setDec_msr (s : State) (v : BitVec 32) :
    (s.setDec v).msr = s.msr := rfl
@[simp] theorem State.setDec_window (s : State) (v : BitVec 32) :
    (s.setDec v).window = s.window := rfl
@[simp] theorem State.setDec_srr0 (s : State) (v : BitVec 32) :
    (s.setDec v).srr0 = s.srr0 := rfl
@[simp] theorem State.setDec_srr1 (s : State) (v : BitVec 32) :
    (s.setDec v).srr1 = s.srr1 := rfl
@[simp] theorem State.setDec_dsisr (s : State) (v : BitVec 32) :
    (s.setDec v).dsisr = s.dsisr := rfl
@[simp] theorem State.setDec_dar (s : State) (v : BitVec 32) :
    (s.setDec v).dar = s.dar := rfl
@[simp] theorem State.setDec_dec (s : State) (v : BitVec 32) :
    (s.setDec v).dec = v := rfl
@[simp] theorem State.setDec_decPending (s : State) (v : BitVec 32) :
    (s.setDec v).decPending = (s.decPending || (!s.dec.getMsbD 0 && v.getMsbD 0)) := rfl
@[simp] theorem State.setDec_tickCount (s : State) (v : BitVec 32) :
    (s.setDec v).tickCount = s.tickCount := rfl
@[simp] theorem State.setDec_cr (s : State) (v : BitVec 32) :
    (s.setDec v).cr = s.cr := rfl
@[simp] theorem State.setDec_xer (s : State) (v : BitVec 32) :
    (s.setDec v).xer = s.xer := rfl
@[simp] theorem State.setDec_lr (s : State) (v : BitVec 32) :
    (s.setDec v).lr = s.lr := rfl
@[simp] theorem State.setDec_ctr (s : State) (v : BitVec 32) :
    (s.setDec v).ctr = s.ctr := rfl
@[simp] theorem State.setDec_fex (s : State) (v : BitVec 32) :
    (s.setDec v).fex = s.fex := rfl
@[simp] theorem State.setDec_ear (s : State) (v : BitVec 32) :
    (s.setDec v).ear = s.ear := rfl
@[simp] theorem State.setDec_dabr (s : State) (v : BitVec 32) :
    (s.setDec v).dabr = s.dabr := rfl
@[simp] theorem State.setDec_reservation (s : State) (v : BitVec 32) :
    (s.setDec v).reservation = s.reservation := rfl
@[simp] theorem State.setDec_extSignal (s : State) (v : BitVec 32) :
    (s.setDec v).extSignal = s.extSignal := rfl
@[simp] theorem State.setDec_sresetReq (s : State) (v : BitVec 32) :
    (s.setDec v).sresetReq = s.sresetReq := rfl
@[simp] theorem State.setDec_sresetLost (s : State) (v : BitVec 32) :
    (s.setDec v).sresetLost = s.sresetLost := rfl
@[simp] theorem State.setDec_mcheckReq (s : State) (v : BitVec 32) :
    (s.setDec v).mcheckReq = s.mcheckReq := rfl
@[simp] theorem State.setDec_mcheckLost (s : State) (v : BitVec 32) :
    (s.setDec v).mcheckLost = s.mcheckLost := rfl
@[simp] theorem State.setDec_checkstop (s : State) (v : BitVec 32) :
    (s.setDec v).checkstop = s.checkstop := rfl
@[simp] theorem State.setDec_mem (s : State) (v : BitVec 32) :
    (s.setDec v).mem = s.mem := rfl
@[simp] theorem State.setDec_extOut (s : State) (v : BitVec 32) :
    (s.setDec v).extOut = s.extOut := rfl
@[simp] theorem State.setDec_env (s : State) (v : BitVec 32) :
    (s.setDec v).env = s.env := rfl
@[simp] theorem State.setDec_draws (s : State) (v : BitVec 32) :
    (s.setDec v).draws = s.draws := rfl
@[simp] theorem State.setDec_taken (s : State) (v : BitVec 32) :
    (s.setDec v).taken = s.taken := rfl

/-! ### State.setCr0 -/

@[simp] theorem State.setCr0_cfg (s : State) (v : BitVec 4) :
    (s.setCr0 v).cfg = s.cfg := rfl
@[simp] theorem State.setCr0_gpr (s : State) (v : BitVec 4) :
    (s.setCr0 v).gpr = s.gpr := rfl
@[simp] theorem State.setCr0_fpr (s : State) (v : BitVec 4) :
    (s.setCr0 v).fpr = s.fpr := rfl
@[simp] theorem State.setCr0_nia (s : State) (v : BitVec 4) :
    (s.setCr0 v).nia = s.nia := rfl
@[simp] theorem State.setCr0_cia (s : State) (v : BitVec 4) :
    (s.setCr0 v).cia = s.cia := rfl
@[simp] theorem State.setCr0_msr (s : State) (v : BitVec 4) :
    (s.setCr0 v).msr = s.msr := rfl
@[simp] theorem State.setCr0_window (s : State) (v : BitVec 4) :
    (s.setCr0 v).window = s.window := rfl
@[simp] theorem State.setCr0_srr0 (s : State) (v : BitVec 4) :
    (s.setCr0 v).srr0 = s.srr0 := rfl
@[simp] theorem State.setCr0_srr1 (s : State) (v : BitVec 4) :
    (s.setCr0 v).srr1 = s.srr1 := rfl
@[simp] theorem State.setCr0_dsisr (s : State) (v : BitVec 4) :
    (s.setCr0 v).dsisr = s.dsisr := rfl
@[simp] theorem State.setCr0_dar (s : State) (v : BitVec 4) :
    (s.setCr0 v).dar = s.dar := rfl
@[simp] theorem State.setCr0_dec (s : State) (v : BitVec 4) :
    (s.setCr0 v).dec = s.dec := rfl
@[simp] theorem State.setCr0_decPending (s : State) (v : BitVec 4) :
    (s.setCr0 v).decPending = s.decPending := rfl
@[simp] theorem State.setCr0_tickCount (s : State) (v : BitVec 4) :
    (s.setCr0 v).tickCount = s.tickCount := rfl
@[simp] theorem State.setCr0_cr (s : State) (v : BitVec 4) :
    (s.setCr0 v).cr = withCr0 s.cr v := rfl
@[simp] theorem State.setCr0_xer (s : State) (v : BitVec 4) :
    (s.setCr0 v).xer = s.xer := rfl
@[simp] theorem State.setCr0_lr (s : State) (v : BitVec 4) :
    (s.setCr0 v).lr = s.lr := rfl
@[simp] theorem State.setCr0_ctr (s : State) (v : BitVec 4) :
    (s.setCr0 v).ctr = s.ctr := rfl
@[simp] theorem State.setCr0_fex (s : State) (v : BitVec 4) :
    (s.setCr0 v).fex = s.fex := rfl
@[simp] theorem State.setCr0_ear (s : State) (v : BitVec 4) :
    (s.setCr0 v).ear = s.ear := rfl
@[simp] theorem State.setCr0_dabr (s : State) (v : BitVec 4) :
    (s.setCr0 v).dabr = s.dabr := rfl
@[simp] theorem State.setCr0_reservation (s : State) (v : BitVec 4) :
    (s.setCr0 v).reservation = s.reservation := rfl
@[simp] theorem State.setCr0_extSignal (s : State) (v : BitVec 4) :
    (s.setCr0 v).extSignal = s.extSignal := rfl
@[simp] theorem State.setCr0_sresetReq (s : State) (v : BitVec 4) :
    (s.setCr0 v).sresetReq = s.sresetReq := rfl
@[simp] theorem State.setCr0_sresetLost (s : State) (v : BitVec 4) :
    (s.setCr0 v).sresetLost = s.sresetLost := rfl
@[simp] theorem State.setCr0_mcheckReq (s : State) (v : BitVec 4) :
    (s.setCr0 v).mcheckReq = s.mcheckReq := rfl
@[simp] theorem State.setCr0_mcheckLost (s : State) (v : BitVec 4) :
    (s.setCr0 v).mcheckLost = s.mcheckLost := rfl
@[simp] theorem State.setCr0_checkstop (s : State) (v : BitVec 4) :
    (s.setCr0 v).checkstop = s.checkstop := rfl
@[simp] theorem State.setCr0_mem (s : State) (v : BitVec 4) :
    (s.setCr0 v).mem = s.mem := rfl
@[simp] theorem State.setCr0_extOut (s : State) (v : BitVec 4) :
    (s.setCr0 v).extOut = s.extOut := rfl
@[simp] theorem State.setCr0_env (s : State) (v : BitVec 4) :
    (s.setCr0 v).env = s.env := rfl
@[simp] theorem State.setCr0_draws (s : State) (v : BitVec 4) :
    (s.setCr0 v).draws = s.draws := rfl
@[simp] theorem State.setCr0_taken (s : State) (v : BitVec 4) :
    (s.setCr0 v).taken = s.taken := rfl

/-! ### State.complete -/

@[simp] theorem State.complete_cfg (s : State) :
    (s.complete).cfg = s.cfg := rfl
@[simp] theorem State.complete_gpr (s : State) :
    (s.complete).gpr = s.gpr := rfl
@[simp] theorem State.complete_fpr (s : State) :
    (s.complete).fpr = s.fpr := rfl
@[simp] theorem State.complete_nia (s : State) :
    (s.complete).nia = s.maskEa (s.cia + 4) := rfl
@[simp] theorem State.complete_cia (s : State) :
    (s.complete).cia = s.cia := rfl
@[simp] theorem State.complete_msr (s : State) :
    (s.complete).msr = s.msr := rfl
@[simp] theorem State.complete_window (s : State) :
    (s.complete).window = s.window := rfl
@[simp] theorem State.complete_srr0 (s : State) :
    (s.complete).srr0 = s.srr0 := rfl
@[simp] theorem State.complete_srr1 (s : State) :
    (s.complete).srr1 = s.srr1 := rfl
@[simp] theorem State.complete_dsisr (s : State) :
    (s.complete).dsisr = s.dsisr := rfl
@[simp] theorem State.complete_dar (s : State) :
    (s.complete).dar = s.dar := rfl
@[simp] theorem State.complete_dec (s : State) :
    (s.complete).dec = s.dec := rfl
@[simp] theorem State.complete_decPending (s : State) :
    (s.complete).decPending = s.decPending := rfl
@[simp] theorem State.complete_tickCount (s : State) :
    (s.complete).tickCount = s.tickCount := rfl
@[simp] theorem State.complete_cr (s : State) :
    (s.complete).cr = s.cr := rfl
@[simp] theorem State.complete_xer (s : State) :
    (s.complete).xer = s.xer := rfl
@[simp] theorem State.complete_lr (s : State) :
    (s.complete).lr = s.lr := rfl
@[simp] theorem State.complete_ctr (s : State) :
    (s.complete).ctr = s.ctr := rfl
@[simp] theorem State.complete_fex (s : State) :
    (s.complete).fex = s.fex := rfl
@[simp] theorem State.complete_ear (s : State) :
    (s.complete).ear = s.ear := rfl
@[simp] theorem State.complete_dabr (s : State) :
    (s.complete).dabr = s.dabr := rfl
@[simp] theorem State.complete_reservation (s : State) :
    (s.complete).reservation = s.reservation := rfl
@[simp] theorem State.complete_extSignal (s : State) :
    (s.complete).extSignal = s.extSignal := rfl
@[simp] theorem State.complete_sresetReq (s : State) :
    (s.complete).sresetReq = s.sresetReq := rfl
@[simp] theorem State.complete_sresetLost (s : State) :
    (s.complete).sresetLost = s.sresetLost := rfl
@[simp] theorem State.complete_mcheckReq (s : State) :
    (s.complete).mcheckReq = s.mcheckReq := rfl
@[simp] theorem State.complete_mcheckLost (s : State) :
    (s.complete).mcheckLost = s.mcheckLost := rfl
@[simp] theorem State.complete_checkstop (s : State) :
    (s.complete).checkstop = s.checkstop := rfl
@[simp] theorem State.complete_mem (s : State) :
    (s.complete).mem = s.mem := rfl
@[simp] theorem State.complete_extOut (s : State) :
    (s.complete).extOut = s.extOut := rfl
@[simp] theorem State.complete_env (s : State) :
    (s.complete).env = s.env := rfl
@[simp] theorem State.complete_draws (s : State) :
    (s.complete).draws = s.draws := rfl
@[simp] theorem State.complete_taken (s : State) :
    (s.complete).taken = s.taken := rfl

/-! ### State.writeMsr -/

@[simp] theorem State.writeMsr_cfg (s : State) (v : Word) :
    (s.writeMsr v).cfg = s.cfg := rfl
@[simp] theorem State.writeMsr_gpr (s : State) (v : Word) :
    (s.writeMsr v).gpr = s.gpr := rfl
@[simp] theorem State.writeMsr_fpr (s : State) (v : Word) :
    (s.writeMsr v).fpr = s.fpr := rfl
@[simp] theorem State.writeMsr_nia (s : State) (v : Word) :
    (s.writeMsr v).nia = s.nia := rfl
@[simp] theorem State.writeMsr_cia (s : State) (v : Word) :
    (s.writeMsr v).cia = s.cia := rfl
@[simp] theorem State.writeMsr_msr (s : State) (v : Word) :
    (s.writeMsr v).msr = v := rfl
@[simp] theorem State.writeMsr_window (s : State) (v : Word) :
    (s.writeMsr v).window = (if s.cfg.msrWindow then s.msr :: s.window else []) := rfl
@[simp] theorem State.writeMsr_srr0 (s : State) (v : Word) :
    (s.writeMsr v).srr0 = s.srr0 := rfl
@[simp] theorem State.writeMsr_srr1 (s : State) (v : Word) :
    (s.writeMsr v).srr1 = s.srr1 := rfl
@[simp] theorem State.writeMsr_dsisr (s : State) (v : Word) :
    (s.writeMsr v).dsisr = s.dsisr := rfl
@[simp] theorem State.writeMsr_dar (s : State) (v : Word) :
    (s.writeMsr v).dar = s.dar := rfl
@[simp] theorem State.writeMsr_dec (s : State) (v : Word) :
    (s.writeMsr v).dec = s.dec := rfl
@[simp] theorem State.writeMsr_decPending (s : State) (v : Word) :
    (s.writeMsr v).decPending = s.decPending := rfl
@[simp] theorem State.writeMsr_tickCount (s : State) (v : Word) :
    (s.writeMsr v).tickCount = s.tickCount := rfl
@[simp] theorem State.writeMsr_cr (s : State) (v : Word) :
    (s.writeMsr v).cr = s.cr := rfl
@[simp] theorem State.writeMsr_xer (s : State) (v : Word) :
    (s.writeMsr v).xer = s.xer := rfl
@[simp] theorem State.writeMsr_lr (s : State) (v : Word) :
    (s.writeMsr v).lr = s.lr := rfl
@[simp] theorem State.writeMsr_ctr (s : State) (v : Word) :
    (s.writeMsr v).ctr = s.ctr := rfl
@[simp] theorem State.writeMsr_fex (s : State) (v : Word) :
    (s.writeMsr v).fex = s.fex := rfl
@[simp] theorem State.writeMsr_ear (s : State) (v : Word) :
    (s.writeMsr v).ear = s.ear := rfl
@[simp] theorem State.writeMsr_dabr (s : State) (v : Word) :
    (s.writeMsr v).dabr = s.dabr := rfl
@[simp] theorem State.writeMsr_reservation (s : State) (v : Word) :
    (s.writeMsr v).reservation = s.reservation := rfl
@[simp] theorem State.writeMsr_extSignal (s : State) (v : Word) :
    (s.writeMsr v).extSignal = s.extSignal := rfl
@[simp] theorem State.writeMsr_sresetReq (s : State) (v : Word) :
    (s.writeMsr v).sresetReq = s.sresetReq := rfl
@[simp] theorem State.writeMsr_sresetLost (s : State) (v : Word) :
    (s.writeMsr v).sresetLost = s.sresetLost := rfl
@[simp] theorem State.writeMsr_mcheckReq (s : State) (v : Word) :
    (s.writeMsr v).mcheckReq = s.mcheckReq := rfl
@[simp] theorem State.writeMsr_mcheckLost (s : State) (v : Word) :
    (s.writeMsr v).mcheckLost = s.mcheckLost := rfl
@[simp] theorem State.writeMsr_checkstop (s : State) (v : Word) :
    (s.writeMsr v).checkstop = s.checkstop := rfl
@[simp] theorem State.writeMsr_mem (s : State) (v : Word) :
    (s.writeMsr v).mem = s.mem := rfl
@[simp] theorem State.writeMsr_extOut (s : State) (v : Word) :
    (s.writeMsr v).extOut = s.extOut := rfl
@[simp] theorem State.writeMsr_env (s : State) (v : Word) :
    (s.writeMsr v).env = s.env := rfl
@[simp] theorem State.writeMsr_draws (s : State) (v : Word) :
    (s.writeMsr v).draws = s.draws := rfl
@[simp] theorem State.writeMsr_taken (s : State) (v : Word) :
    (s.writeMsr v).taken = s.taken := rfl

/-! ### returnFrom -/

@[simp] theorem returnFrom_cfg (mask : Word) (s : State) :
    (returnFrom mask s).cfg = s.cfg := rfl
@[simp] theorem returnFrom_gpr (mask : Word) (s : State) :
    (returnFrom mask s).gpr = s.gpr := rfl
@[simp] theorem returnFrom_fpr (mask : Word) (s : State) :
    (returnFrom mask s).fpr = s.fpr := rfl
@[simp] theorem returnFrom_nia (mask : Word) (s : State) :
    (returnFrom mask s).nia = returnTarget s.cfg (restoredMsr mask s.msr s.srr1) s.srr0 := rfl
@[simp] theorem returnFrom_cia (mask : Word) (s : State) :
    (returnFrom mask s).cia = s.cia := rfl
@[simp] theorem returnFrom_msr (mask : Word) (s : State) :
    (returnFrom mask s).msr = restoredMsr mask s.msr s.srr1 := rfl
@[simp] theorem returnFrom_window (mask : Word) (s : State) :
    (returnFrom mask s).window = [] := rfl
@[simp] theorem returnFrom_srr0 (mask : Word) (s : State) :
    (returnFrom mask s).srr0 = s.srr0 := rfl
@[simp] theorem returnFrom_srr1 (mask : Word) (s : State) :
    (returnFrom mask s).srr1 = s.srr1 := rfl
@[simp] theorem returnFrom_dsisr (mask : Word) (s : State) :
    (returnFrom mask s).dsisr = s.dsisr := rfl
@[simp] theorem returnFrom_dar (mask : Word) (s : State) :
    (returnFrom mask s).dar = s.dar := rfl
@[simp] theorem returnFrom_dec (mask : Word) (s : State) :
    (returnFrom mask s).dec = s.dec := rfl
@[simp] theorem returnFrom_decPending (mask : Word) (s : State) :
    (returnFrom mask s).decPending = s.decPending := rfl
@[simp] theorem returnFrom_tickCount (mask : Word) (s : State) :
    (returnFrom mask s).tickCount = s.tickCount := rfl
@[simp] theorem returnFrom_cr (mask : Word) (s : State) :
    (returnFrom mask s).cr = s.cr := rfl
@[simp] theorem returnFrom_xer (mask : Word) (s : State) :
    (returnFrom mask s).xer = s.xer := rfl
@[simp] theorem returnFrom_lr (mask : Word) (s : State) :
    (returnFrom mask s).lr = s.lr := rfl
@[simp] theorem returnFrom_ctr (mask : Word) (s : State) :
    (returnFrom mask s).ctr = s.ctr := rfl
@[simp] theorem returnFrom_fex (mask : Word) (s : State) :
    (returnFrom mask s).fex = s.fex := rfl
@[simp] theorem returnFrom_ear (mask : Word) (s : State) :
    (returnFrom mask s).ear = s.ear := rfl
@[simp] theorem returnFrom_dabr (mask : Word) (s : State) :
    (returnFrom mask s).dabr = s.dabr := rfl
@[simp] theorem returnFrom_reservation (mask : Word) (s : State) :
    (returnFrom mask s).reservation = s.reservation := rfl
@[simp] theorem returnFrom_extSignal (mask : Word) (s : State) :
    (returnFrom mask s).extSignal = s.extSignal := rfl
@[simp] theorem returnFrom_sresetReq (mask : Word) (s : State) :
    (returnFrom mask s).sresetReq = s.sresetReq := rfl
@[simp] theorem returnFrom_sresetLost (mask : Word) (s : State) :
    (returnFrom mask s).sresetLost = s.sresetLost := rfl
@[simp] theorem returnFrom_mcheckReq (mask : Word) (s : State) :
    (returnFrom mask s).mcheckReq = s.mcheckReq := rfl
@[simp] theorem returnFrom_mcheckLost (mask : Word) (s : State) :
    (returnFrom mask s).mcheckLost = s.mcheckLost := rfl
@[simp] theorem returnFrom_checkstop (mask : Word) (s : State) :
    (returnFrom mask s).checkstop = s.checkstop := rfl
@[simp] theorem returnFrom_mem (mask : Word) (s : State) :
    (returnFrom mask s).mem = s.mem := rfl
@[simp] theorem returnFrom_extOut (mask : Word) (s : State) :
    (returnFrom mask s).extOut = s.extOut := rfl
@[simp] theorem returnFrom_env (mask : Word) (s : State) :
    (returnFrom mask s).env = s.env := rfl
@[simp] theorem returnFrom_draws (mask : Word) (s : State) :
    (returnFrom mask s).draws = s.draws := rfl
@[simp] theorem returnFrom_taken (mask : Word) (s : State) :
    (returnFrom mask s).taken = s.taken := rfl

/-! ### takeException -/

@[simp] theorem takeException_cfg (e : Exc) (a : Word) (s : State) :
    (takeException e a s).cfg = s.cfg := rfl
@[simp] theorem takeException_gpr (e : Exc) (a : Word) (s : State) :
    (takeException e a s).gpr = s.gpr := rfl
@[simp] theorem takeException_fpr (e : Exc) (a : Word) (s : State) :
    (takeException e a s).fpr = s.fpr := rfl
@[simp] theorem takeException_nia (e : Exc) (a : Word) (s : State) :
    (takeException e a s).nia = vectorBase s.cfg (msrIP s.context) + e.offset := rfl
@[simp] theorem takeException_cia (e : Exc) (a : Word) (s : State) :
    (takeException e a s).cia = s.cia := rfl
@[simp] theorem takeException_msr (e : Exc) (a : Word) (s : State) :
    (takeException e a s).msr = entryMsr s.cfg e s.msr := rfl
@[simp] theorem takeException_window (e : Exc) (a : Word) (s : State) :
    (takeException e a s).window = [] := rfl
@[simp] theorem takeException_srr0 (e : Exc) (a : Word) (s : State) :
    (takeException e a s).srr0 = addressIn s.cfg s.msr a := rfl
@[simp] theorem takeException_srr1 (e : Exc) (a : Word) (s : State) :
    (takeException e a s).srr1 = saveImage s.cfg e s.msr := rfl
@[simp] theorem takeException_dsisr (e : Exc) (a : Word) (s : State) :
    (takeException e a s).dsisr = (e.fault?.map Prod.fst).getD s.dsisr := rfl
@[simp] theorem takeException_dar (e : Exc) (a : Word) (s : State) :
    (takeException e a s).dar = (e.fault?.map Prod.snd).getD s.dar := rfl
@[simp] theorem takeException_dec (e : Exc) (a : Word) (s : State) :
    (takeException e a s).dec = s.dec := rfl
@[simp] theorem takeException_tickCount (e : Exc) (a : Word) (s : State) :
    (takeException e a s).tickCount = s.tickCount := rfl
@[simp] theorem takeException_cr (e : Exc) (a : Word) (s : State) :
    (takeException e a s).cr = s.cr := rfl
@[simp] theorem takeException_xer (e : Exc) (a : Word) (s : State) :
    (takeException e a s).xer = s.xer := rfl
@[simp] theorem takeException_lr (e : Exc) (a : Word) (s : State) :
    (takeException e a s).lr = s.lr := rfl
@[simp] theorem takeException_ctr (e : Exc) (a : Word) (s : State) :
    (takeException e a s).ctr = s.ctr := rfl
@[simp] theorem takeException_fex (e : Exc) (a : Word) (s : State) :
    (takeException e a s).fex = s.fex := rfl
@[simp] theorem takeException_ear (e : Exc) (a : Word) (s : State) :
    (takeException e a s).ear = s.ear := rfl
@[simp] theorem takeException_dabr (e : Exc) (a : Word) (s : State) :
    (takeException e a s).dabr = s.dabr := rfl
@[simp] theorem takeException_reservation (e : Exc) (a : Word) (s : State) :
    (takeException e a s).reservation = s.reservation := rfl
@[simp] theorem takeException_extSignal (e : Exc) (a : Word) (s : State) :
    (takeException e a s).extSignal = s.extSignal := rfl
@[simp] theorem takeException_sresetLost (e : Exc) (a : Word) (s : State) :
    (takeException e a s).sresetLost = s.sresetLost := rfl
@[simp] theorem takeException_mcheckLost (e : Exc) (a : Word) (s : State) :
    (takeException e a s).mcheckLost = s.mcheckLost := rfl
@[simp] theorem takeException_checkstop (e : Exc) (a : Word) (s : State) :
    (takeException e a s).checkstop = s.checkstop := rfl
@[simp] theorem takeException_mem (e : Exc) (a : Word) (s : State) :
    (takeException e a s).mem = s.mem := rfl
@[simp] theorem takeException_extOut (e : Exc) (a : Word) (s : State) :
    (takeException e a s).extOut = s.extOut := rfl
@[simp] theorem takeException_env (e : Exc) (a : Word) (s : State) :
    (takeException e a s).env = s.env := rfl
@[simp] theorem takeException_draws (e : Exc) (a : Word) (s : State) :
    (takeException e a s).draws = s.draws := rfl
@[simp] theorem takeException_taken (e : Exc) (a : Word) (s : State) :
    (takeException e a s).taken = true := rfl

/-! ### storeBytes -/

@[simp] theorem storeBytes_cfg (a : Access) (data : List Byte) (s : State) :
    (storeBytes a data s).cfg = s.cfg := rfl
@[simp] theorem storeBytes_gpr (a : Access) (data : List Byte) (s : State) :
    (storeBytes a data s).gpr = s.gpr := rfl
@[simp] theorem storeBytes_fpr (a : Access) (data : List Byte) (s : State) :
    (storeBytes a data s).fpr = s.fpr := rfl
@[simp] theorem storeBytes_nia (a : Access) (data : List Byte) (s : State) :
    (storeBytes a data s).nia = s.nia := rfl
@[simp] theorem storeBytes_cia (a : Access) (data : List Byte) (s : State) :
    (storeBytes a data s).cia = s.cia := rfl
@[simp] theorem storeBytes_msr (a : Access) (data : List Byte) (s : State) :
    (storeBytes a data s).msr = s.msr := rfl
@[simp] theorem storeBytes_window (a : Access) (data : List Byte) (s : State) :
    (storeBytes a data s).window = s.window := rfl
@[simp] theorem storeBytes_srr0 (a : Access) (data : List Byte) (s : State) :
    (storeBytes a data s).srr0 = s.srr0 := rfl
@[simp] theorem storeBytes_srr1 (a : Access) (data : List Byte) (s : State) :
    (storeBytes a data s).srr1 = s.srr1 := rfl
@[simp] theorem storeBytes_dsisr (a : Access) (data : List Byte) (s : State) :
    (storeBytes a data s).dsisr = s.dsisr := rfl
@[simp] theorem storeBytes_dar (a : Access) (data : List Byte) (s : State) :
    (storeBytes a data s).dar = s.dar := rfl
@[simp] theorem storeBytes_dec (a : Access) (data : List Byte) (s : State) :
    (storeBytes a data s).dec = s.dec := rfl
@[simp] theorem storeBytes_decPending (a : Access) (data : List Byte) (s : State) :
    (storeBytes a data s).decPending = s.decPending := rfl
@[simp] theorem storeBytes_tickCount (a : Access) (data : List Byte) (s : State) :
    (storeBytes a data s).tickCount = s.tickCount := rfl
@[simp] theorem storeBytes_cr (a : Access) (data : List Byte) (s : State) :
    (storeBytes a data s).cr = s.cr := rfl
@[simp] theorem storeBytes_xer (a : Access) (data : List Byte) (s : State) :
    (storeBytes a data s).xer = s.xer := rfl
@[simp] theorem storeBytes_lr (a : Access) (data : List Byte) (s : State) :
    (storeBytes a data s).lr = s.lr := rfl
@[simp] theorem storeBytes_ctr (a : Access) (data : List Byte) (s : State) :
    (storeBytes a data s).ctr = s.ctr := rfl
@[simp] theorem storeBytes_fex (a : Access) (data : List Byte) (s : State) :
    (storeBytes a data s).fex = s.fex := rfl
@[simp] theorem storeBytes_ear (a : Access) (data : List Byte) (s : State) :
    (storeBytes a data s).ear = s.ear := rfl
@[simp] theorem storeBytes_dabr (a : Access) (data : List Byte) (s : State) :
    (storeBytes a data s).dabr = s.dabr := rfl
@[simp] theorem storeBytes_reservation (a : Access) (data : List Byte) (s : State) :
    (storeBytes a data s).reservation = s.reservation := rfl
@[simp] theorem storeBytes_extSignal (a : Access) (data : List Byte) (s : State) :
    (storeBytes a data s).extSignal = s.extSignal := rfl
@[simp] theorem storeBytes_sresetReq (a : Access) (data : List Byte) (s : State) :
    (storeBytes a data s).sresetReq = s.sresetReq := rfl
@[simp] theorem storeBytes_sresetLost (a : Access) (data : List Byte) (s : State) :
    (storeBytes a data s).sresetLost = s.sresetLost := rfl
@[simp] theorem storeBytes_mcheckReq (a : Access) (data : List Byte) (s : State) :
    (storeBytes a data s).mcheckReq = s.mcheckReq := rfl
@[simp] theorem storeBytes_mcheckLost (a : Access) (data : List Byte) (s : State) :
    (storeBytes a data s).mcheckLost = s.mcheckLost := rfl
@[simp] theorem storeBytes_checkstop (a : Access) (data : List Byte) (s : State) :
    (storeBytes a data s).checkstop = s.checkstop := rfl
@[simp] theorem storeBytes_mem (a : Access) (data : List Byte) (s : State) :
    (storeBytes a data s).mem = writeBytes s.mem (s.keptStores a data fun _ => true) := rfl
@[simp] theorem storeBytes_extOut (a : Access) (data : List Byte) (s : State) :
    (storeBytes a data s).extOut = s.extOut := rfl
@[simp] theorem storeBytes_env (a : Access) (data : List Byte) (s : State) :
    (storeBytes a data s).env = s.env := rfl
@[simp] theorem storeBytes_draws (a : Access) (data : List Byte) (s : State) :
    (storeBytes a data s).draws = s.draws := rfl
@[simp] theorem storeBytes_taken (a : Access) (data : List Byte) (s : State) :
    (storeBytes a data s).taken = s.taken := rfl

/-! ### clearBlock -/

@[simp] theorem clearBlock_cfg (a : Access) (s : State) :
    (clearBlock a s).cfg = s.cfg := rfl
@[simp] theorem clearBlock_gpr (a : Access) (s : State) :
    (clearBlock a s).gpr = s.gpr := rfl
@[simp] theorem clearBlock_fpr (a : Access) (s : State) :
    (clearBlock a s).fpr = s.fpr := rfl
@[simp] theorem clearBlock_nia (a : Access) (s : State) :
    (clearBlock a s).nia = s.nia := rfl
@[simp] theorem clearBlock_cia (a : Access) (s : State) :
    (clearBlock a s).cia = s.cia := rfl
@[simp] theorem clearBlock_msr (a : Access) (s : State) :
    (clearBlock a s).msr = s.msr := rfl
@[simp] theorem clearBlock_window (a : Access) (s : State) :
    (clearBlock a s).window = s.window := rfl
@[simp] theorem clearBlock_srr0 (a : Access) (s : State) :
    (clearBlock a s).srr0 = s.srr0 := rfl
@[simp] theorem clearBlock_srr1 (a : Access) (s : State) :
    (clearBlock a s).srr1 = s.srr1 := rfl
@[simp] theorem clearBlock_dsisr (a : Access) (s : State) :
    (clearBlock a s).dsisr = s.dsisr := rfl
@[simp] theorem clearBlock_dar (a : Access) (s : State) :
    (clearBlock a s).dar = s.dar := rfl
@[simp] theorem clearBlock_dec (a : Access) (s : State) :
    (clearBlock a s).dec = s.dec := rfl
@[simp] theorem clearBlock_decPending (a : Access) (s : State) :
    (clearBlock a s).decPending = s.decPending := rfl
@[simp] theorem clearBlock_tickCount (a : Access) (s : State) :
    (clearBlock a s).tickCount = s.tickCount := rfl
@[simp] theorem clearBlock_cr (a : Access) (s : State) :
    (clearBlock a s).cr = s.cr := rfl
@[simp] theorem clearBlock_xer (a : Access) (s : State) :
    (clearBlock a s).xer = s.xer := rfl
@[simp] theorem clearBlock_lr (a : Access) (s : State) :
    (clearBlock a s).lr = s.lr := rfl
@[simp] theorem clearBlock_ctr (a : Access) (s : State) :
    (clearBlock a s).ctr = s.ctr := rfl
@[simp] theorem clearBlock_fex (a : Access) (s : State) :
    (clearBlock a s).fex = s.fex := rfl
@[simp] theorem clearBlock_ear (a : Access) (s : State) :
    (clearBlock a s).ear = s.ear := rfl
@[simp] theorem clearBlock_dabr (a : Access) (s : State) :
    (clearBlock a s).dabr = s.dabr := rfl
@[simp] theorem clearBlock_reservation (a : Access) (s : State) :
    (clearBlock a s).reservation = s.reservation := rfl
@[simp] theorem clearBlock_extSignal (a : Access) (s : State) :
    (clearBlock a s).extSignal = s.extSignal := rfl
@[simp] theorem clearBlock_sresetReq (a : Access) (s : State) :
    (clearBlock a s).sresetReq = s.sresetReq := rfl
@[simp] theorem clearBlock_sresetLost (a : Access) (s : State) :
    (clearBlock a s).sresetLost = s.sresetLost := rfl
@[simp] theorem clearBlock_mcheckReq (a : Access) (s : State) :
    (clearBlock a s).mcheckReq = s.mcheckReq := rfl
@[simp] theorem clearBlock_mcheckLost (a : Access) (s : State) :
    (clearBlock a s).mcheckLost = s.mcheckLost := rfl
@[simp] theorem clearBlock_checkstop (a : Access) (s : State) :
    (clearBlock a s).checkstop = s.checkstop := rfl
@[simp] theorem clearBlock_mem (a : Access) (s : State) :
    (clearBlock a s).mem = writeBytes s.mem ((s.block a).map fun pa => (pa, 0)) := rfl
@[simp] theorem clearBlock_extOut (a : Access) (s : State) :
    (clearBlock a s).extOut = s.extOut := rfl
@[simp] theorem clearBlock_env (a : Access) (s : State) :
    (clearBlock a s).env = s.env := rfl
@[simp] theorem clearBlock_draws (a : Access) (s : State) :
    (clearBlock a s).draws = s.draws := rfl
@[simp] theorem clearBlock_taken (a : Access) (s : State) :
    (clearBlock a s).taken = s.taken := rfl

/-! ### beginInstruction -/

@[simp] theorem beginInstruction_cfg (s : State) :
    (beginInstruction s).cfg = s.cfg := rfl
@[simp] theorem beginInstruction_gpr (s : State) :
    (beginInstruction s).gpr = s.gpr := rfl
@[simp] theorem beginInstruction_fpr (s : State) :
    (beginInstruction s).fpr = s.fpr := rfl
@[simp] theorem beginInstruction_nia (s : State) :
    (beginInstruction s).nia = s.nia := rfl
@[simp] theorem beginInstruction_cia (s : State) :
    (beginInstruction s).cia = s.maskEa s.nia := rfl
@[simp] theorem beginInstruction_msr (s : State) :
    (beginInstruction s).msr = s.msr := rfl
@[simp] theorem beginInstruction_window (s : State) :
    (beginInstruction s).window = s.window := rfl
@[simp] theorem beginInstruction_srr0 (s : State) :
    (beginInstruction s).srr0 = s.srr0 := rfl
@[simp] theorem beginInstruction_srr1 (s : State) :
    (beginInstruction s).srr1 = s.srr1 := rfl
@[simp] theorem beginInstruction_dsisr (s : State) :
    (beginInstruction s).dsisr = s.dsisr := rfl
@[simp] theorem beginInstruction_dar (s : State) :
    (beginInstruction s).dar = s.dar := rfl
@[simp] theorem beginInstruction_dec (s : State) :
    (beginInstruction s).dec = s.dec := rfl
@[simp] theorem beginInstruction_decPending (s : State) :
    (beginInstruction s).decPending = s.decPending := rfl
@[simp] theorem beginInstruction_tickCount (s : State) :
    (beginInstruction s).tickCount = s.tickCount := rfl
@[simp] theorem beginInstruction_cr (s : State) :
    (beginInstruction s).cr = s.cr := rfl
@[simp] theorem beginInstruction_xer (s : State) :
    (beginInstruction s).xer = s.xer := rfl
@[simp] theorem beginInstruction_lr (s : State) :
    (beginInstruction s).lr = s.lr := rfl
@[simp] theorem beginInstruction_ctr (s : State) :
    (beginInstruction s).ctr = s.ctr := rfl
@[simp] theorem beginInstruction_fex (s : State) :
    (beginInstruction s).fex = s.fex := rfl
@[simp] theorem beginInstruction_ear (s : State) :
    (beginInstruction s).ear = s.ear := rfl
@[simp] theorem beginInstruction_dabr (s : State) :
    (beginInstruction s).dabr = s.dabr := rfl
@[simp] theorem beginInstruction_reservation (s : State) :
    (beginInstruction s).reservation = s.reservation := rfl
@[simp] theorem beginInstruction_extSignal (s : State) :
    (beginInstruction s).extSignal = s.extSignal := rfl
@[simp] theorem beginInstruction_sresetReq (s : State) :
    (beginInstruction s).sresetReq = s.sresetReq := rfl
@[simp] theorem beginInstruction_sresetLost (s : State) :
    (beginInstruction s).sresetLost = s.sresetLost := rfl
@[simp] theorem beginInstruction_mcheckReq (s : State) :
    (beginInstruction s).mcheckReq = s.mcheckReq := rfl
@[simp] theorem beginInstruction_mcheckLost (s : State) :
    (beginInstruction s).mcheckLost = s.mcheckLost := rfl
@[simp] theorem beginInstruction_checkstop (s : State) :
    (beginInstruction s).checkstop = s.checkstop := rfl
@[simp] theorem beginInstruction_mem (s : State) :
    (beginInstruction s).mem = s.mem := rfl
@[simp] theorem beginInstruction_extOut (s : State) :
    (beginInstruction s).extOut = s.extOut := rfl
@[simp] theorem beginInstruction_env (s : State) :
    (beginInstruction s).env = s.env := rfl
@[simp] theorem beginInstruction_draws (s : State) :
    (beginInstruction s).draws = s.draws := rfl
@[simp] theorem beginInstruction_taken (s : State) :
    (beginInstruction s).taken = s.taken := rfl

/-! ### Clearing of requests by an exception -/

@[simp] theorem takeException_decPending (e : Exc) (a : Word) (s : State) :
    (takeException e a s).decPending = (match e with
      | .decrementer => false
      | _ => s.decPending) := rfl
@[simp] theorem takeException_sresetReq (e : Exc) (a : Word) (s : State) :
    (takeException e a s).sresetReq = (match e with
      | .systemReset _ => false
      | _ => s.sresetReq) := rfl
@[simp] theorem takeException_mcheckReq (e : Exc) (a : Word) (s : State) :
    (takeException e a s).mcheckReq = (match e with
      | .machineCheck _ => false
      | _ => s.mcheckReq) := rfl

/-! ### State.updateBase -/

@[simp] theorem State.updateBase_none (s : State) (ea : Word) : s.updateBase none ea = s := rfl
@[simp] theorem State.updateBase_some (s : State) (r : Reg) (ea : Word) :
    s.updateBase (some r) ea = s.setGpr r ea := rfl

/-! ### State.clobber -/

@[simp] theorem State.clobber_false (n : Nat) (s : State) : s.clobber false n = s := by
  simp [State.clobber]
@[simp] theorem State.clobber_cfg (b : Bool) (n : Nat) (s : State) :
    (s.clobber b n).cfg = s.cfg := by unfold State.clobber; split <;> rfl
@[simp] theorem State.clobber_gpr (b : Bool) (n : Nat) (s : State) :
    (s.clobber b n).gpr = s.gpr := by unfold State.clobber; split <;> rfl
@[simp] theorem State.clobber_fpr (b : Bool) (n : Nat) (s : State) :
    (s.clobber b n).fpr = s.fpr := by unfold State.clobber; split <;> rfl
@[simp] theorem State.clobber_nia (b : Bool) (n : Nat) (s : State) :
    (s.clobber b n).nia = s.nia := by unfold State.clobber; split <;> rfl
@[simp] theorem State.clobber_cia (b : Bool) (n : Nat) (s : State) :
    (s.clobber b n).cia = s.cia := by unfold State.clobber; split <;> rfl
@[simp] theorem State.clobber_msr (b : Bool) (n : Nat) (s : State) :
    (s.clobber b n).msr = s.msr := by unfold State.clobber; split <;> rfl
@[simp] theorem State.clobber_window (b : Bool) (n : Nat) (s : State) :
    (s.clobber b n).window = s.window := by unfold State.clobber; split <;> rfl
@[simp] theorem State.clobber_dsisr (b : Bool) (n : Nat) (s : State) :
    (s.clobber b n).dsisr = s.dsisr := by unfold State.clobber; split <;> rfl
@[simp] theorem State.clobber_dar (b : Bool) (n : Nat) (s : State) :
    (s.clobber b n).dar = s.dar := by unfold State.clobber; split <;> rfl
@[simp] theorem State.clobber_dec (b : Bool) (n : Nat) (s : State) :
    (s.clobber b n).dec = s.dec := by unfold State.clobber; split <;> rfl
@[simp] theorem State.clobber_decPending (b : Bool) (n : Nat) (s : State) :
    (s.clobber b n).decPending = s.decPending := by unfold State.clobber; split <;> rfl
@[simp] theorem State.clobber_tickCount (b : Bool) (n : Nat) (s : State) :
    (s.clobber b n).tickCount = s.tickCount := by unfold State.clobber; split <;> rfl
@[simp] theorem State.clobber_cr (b : Bool) (n : Nat) (s : State) :
    (s.clobber b n).cr = s.cr := by unfold State.clobber; split <;> rfl
@[simp] theorem State.clobber_xer (b : Bool) (n : Nat) (s : State) :
    (s.clobber b n).xer = s.xer := by unfold State.clobber; split <;> rfl
@[simp] theorem State.clobber_lr (b : Bool) (n : Nat) (s : State) :
    (s.clobber b n).lr = s.lr := by unfold State.clobber; split <;> rfl
@[simp] theorem State.clobber_ctr (b : Bool) (n : Nat) (s : State) :
    (s.clobber b n).ctr = s.ctr := by unfold State.clobber; split <;> rfl
@[simp] theorem State.clobber_fex (b : Bool) (n : Nat) (s : State) :
    (s.clobber b n).fex = s.fex := by unfold State.clobber; split <;> rfl
@[simp] theorem State.clobber_ear (b : Bool) (n : Nat) (s : State) :
    (s.clobber b n).ear = s.ear := by unfold State.clobber; split <;> rfl
@[simp] theorem State.clobber_dabr (b : Bool) (n : Nat) (s : State) :
    (s.clobber b n).dabr = s.dabr := by unfold State.clobber; split <;> rfl
@[simp] theorem State.clobber_reservation (b : Bool) (n : Nat) (s : State) :
    (s.clobber b n).reservation = s.reservation := by unfold State.clobber; split <;> rfl
@[simp] theorem State.clobber_extSignal (b : Bool) (n : Nat) (s : State) :
    (s.clobber b n).extSignal = s.extSignal := by unfold State.clobber; split <;> rfl
@[simp] theorem State.clobber_sresetReq (b : Bool) (n : Nat) (s : State) :
    (s.clobber b n).sresetReq = s.sresetReq := by unfold State.clobber; split <;> rfl
@[simp] theorem State.clobber_sresetLost (b : Bool) (n : Nat) (s : State) :
    (s.clobber b n).sresetLost = s.sresetLost := by unfold State.clobber; split <;> rfl
@[simp] theorem State.clobber_mcheckReq (b : Bool) (n : Nat) (s : State) :
    (s.clobber b n).mcheckReq = s.mcheckReq := by unfold State.clobber; split <;> rfl
@[simp] theorem State.clobber_mcheckLost (b : Bool) (n : Nat) (s : State) :
    (s.clobber b n).mcheckLost = s.mcheckLost := by unfold State.clobber; split <;> rfl
@[simp] theorem State.clobber_checkstop (b : Bool) (n : Nat) (s : State) :
    (s.clobber b n).checkstop = s.checkstop := by unfold State.clobber; split <;> rfl
@[simp] theorem State.clobber_mem (b : Bool) (n : Nat) (s : State) :
    (s.clobber b n).mem = s.mem := by unfold State.clobber; split <;> rfl
@[simp] theorem State.clobber_extOut (b : Bool) (n : Nat) (s : State) :
    (s.clobber b n).extOut = s.extOut := by unfold State.clobber; split <;> rfl
@[simp] theorem State.clobber_env (b : Bool) (n : Nat) (s : State) :
    (s.clobber b n).env = s.env := by unfold State.clobber; split <;> rfl
@[simp] theorem State.clobber_draws (b : Bool) (n : Nat) (s : State) :
    (s.clobber b n).draws = s.draws := by unfold State.clobber; split <;> rfl
@[simp] theorem State.clobber_taken (b : Bool) (n : Nat) (s : State) :
    (s.clobber b n).taken = s.taken := by unfold State.clobber; split <;> rfl

/-! ### State.finish -/

@[simp] theorem State.finish_cfg (s : State) : s.finish.cfg = s.cfg := by simp [State.finish]
@[simp] theorem State.finish_gpr (s : State) : s.finish.gpr = s.gpr := by simp [State.finish]
@[simp] theorem State.finish_fpr (s : State) : s.finish.fpr = s.fpr := by simp [State.finish]
@[simp] theorem State.finish_cia (s : State) : s.finish.cia = s.cia := by simp [State.finish]
@[simp] theorem State.finish_msr (s : State) : s.finish.msr = s.msr := by simp [State.finish]
@[simp] theorem State.finish_window (s : State) : s.finish.window = s.window := by simp [State.finish]
@[simp] theorem State.finish_dsisr (s : State) : s.finish.dsisr = s.dsisr := by simp [State.finish]
@[simp] theorem State.finish_dar (s : State) : s.finish.dar = s.dar := by simp [State.finish]
@[simp] theorem State.finish_dec (s : State) : s.finish.dec = s.dec := by simp [State.finish]
@[simp] theorem State.finish_decPending (s : State) : s.finish.decPending = s.decPending := by simp [State.finish]
@[simp] theorem State.finish_tickCount (s : State) : s.finish.tickCount = s.tickCount := by simp [State.finish]
@[simp] theorem State.finish_cr (s : State) : s.finish.cr = s.cr := by simp [State.finish]
@[simp] theorem State.finish_xer (s : State) : s.finish.xer = s.xer := by simp [State.finish]
@[simp] theorem State.finish_lr (s : State) : s.finish.lr = s.lr := by simp [State.finish]
@[simp] theorem State.finish_ctr (s : State) : s.finish.ctr = s.ctr := by simp [State.finish]
@[simp] theorem State.finish_fex (s : State) : s.finish.fex = s.fex := by simp [State.finish]
@[simp] theorem State.finish_ear (s : State) : s.finish.ear = s.ear := by simp [State.finish]
@[simp] theorem State.finish_dabr (s : State) : s.finish.dabr = s.dabr := by simp [State.finish]
@[simp] theorem State.finish_reservation (s : State) : s.finish.reservation = s.reservation := by simp [State.finish]
@[simp] theorem State.finish_extSignal (s : State) : s.finish.extSignal = s.extSignal := by simp [State.finish]
@[simp] theorem State.finish_sresetReq (s : State) : s.finish.sresetReq = s.sresetReq := by simp [State.finish]
@[simp] theorem State.finish_sresetLost (s : State) : s.finish.sresetLost = s.sresetLost := by simp [State.finish]
@[simp] theorem State.finish_mcheckReq (s : State) : s.finish.mcheckReq = s.mcheckReq := by simp [State.finish]
@[simp] theorem State.finish_mcheckLost (s : State) : s.finish.mcheckLost = s.mcheckLost := by simp [State.finish]
@[simp] theorem State.finish_checkstop (s : State) : s.finish.checkstop = s.checkstop := by simp [State.finish]
@[simp] theorem State.finish_mem (s : State) : s.finish.mem = s.mem := by simp [State.finish]
@[simp] theorem State.finish_extOut (s : State) : s.finish.extOut = s.extOut := by simp [State.finish]
@[simp] theorem State.finish_env (s : State) : s.finish.env = s.env := by simp [State.finish]
@[simp] theorem State.finish_draws (s : State) : s.finish.draws = s.draws := by simp [State.finish]
@[simp] theorem State.finish_taken (s : State) : s.finish.taken = s.taken := by simp [State.finish]

end Sys2Proof.Machine
end

