-- ==== Sys2Proof/Laws/Ops.lean ====
section
/-! SUPPORT. One lemma for each shared operation that says what it can do, for proofs to cite instead of
unfolding it. -/

namespace Sys2Proof.Machine

/-! ## The context -/

/-- The context depends on the MSR, the window and the draw counter alone. -/
theorem State.context_congr {s t : State} (hm : t.msr = s.msr) (hw : t.window = s.window)
    (hd : t.draws = s.draws) : t.context = s.context := by
  simp [State.context, hm, hw, hd]

/-- A bit that the MSR and every value of the window agree on is in force as it is. -/
theorem mixContext_agree (n : Nat) {k : Nat} (hk : k < 64) {v : Bool} (l : List Word) (cur : Word)
    (h : cur.getMsbD k = v) (hl : ∀ w ∈ l, w.getMsbD k = v) : (mixContext n cur l).getMsbD k = v := by
  induction l generalizing cur with
  | nil => exact h
  | cons old rest ih =>
    refine ih _ ?_ fun w hw => hl w (by simp [hw])
    have ho := hl old (by simp)
    simp only [BitVec.getMsbD_and, BitVec.getMsbD_or, BitVec.getMsbD_not, h, ho, hk, decide_true,
      Bool.true_and]
    generalize (Config.freeWord .context n rest.length).getMsbD k = x
    cases v <;> cases x <;> cases maskISF.getMsbD k <;> rfl

/-- With no window open the context is the MSR. -/
theorem State.context_of_closed {s : State} (h : s.window = []) : s.context = s.msr := by
  simp [State.context, h, mixContext]

theorem State.maskEa_congr {s t : State} (hc : t.cfg = s.cfg) (hm : t.msr = s.msr)
    (hw : t.window = s.window) (hd : t.draws = s.draws) (a : Word) : t.maskEa a = s.maskEa a := by
  simp [State.maskEa, hc, State.context_congr hm hw hd]

/-- A window of the MSR's own value alone leaves the MSR in force. -/
theorem State.context_of_same {s : State} (h : s.window = [s.msr]) : s.context = s.msr := by
  simp only [State.context, h, mixContext]
  ext i
  simp only [BitVec.getElem_or, BitVec.getElem_and, BitVec.getElem_not]
  generalize (Config.freeWord .context s.draws [].length)[i] = x
  cases s.msr[i] <;> cases x <;> cases maskISF[i] <;> rfl

@[simp] theorem State.setGpr_context (s : State) (r : Reg) (v : Word) :
    (s.setGpr r v).context = s.context := rfl
@[simp] theorem State.setFpr_context (s : State) (r : FReg) (v : Word) :
    (s.setFpr r v).context = s.context := rfl
@[simp] theorem State.setCr0_context (s : State) (v : BitVec 4) :
    (s.setCr0 v).context = s.context := rfl
@[simp] theorem State.complete_context (s : State) : s.complete.context = s.context := rfl
@[simp] theorem storeBytes_context (a : Access) (data : List Byte) (s : State) :
    (storeBytes a data s).context = s.context := rfl
@[simp] theorem clearBlock_context (a : Access) (s : State) :
    (clearBlock a s).context = s.context := rfl
@[simp] theorem State.clobber_context (b : Bool) (n : Nat) (s : State) :
    (s.clobber b n).context = s.context := State.context_congr (by simp) (by simp) (by simp)

/-! ## Registers -/

@[simp] theorem State.readGpr_setGpr_same (s : State) (r : Reg) (v : Word) :
    (s.setGpr r v).readGpr r = truncXlen s.cfg v := by simp [State.readGpr, State.setGpr]

theorem State.readGpr_setGpr_other (s : State) {r q : Reg} (v : Word) (h : q ≠ r) :
    (s.setGpr r v).readGpr q = s.readGpr q := by
  have : r.toNat ≠ q.toNat := fun e => h (BitVec.eq_of_toNat_eq e).symm
  simp [State.readGpr, State.setGpr, this]

@[simp] theorem State.readFpr_setFpr_same (s : State) (r : FReg) (v : Word) :
    (s.setFpr r v).readFpr r = v := by simp [State.readFpr, State.setFpr]

theorem State.readFpr_setFpr_other (s : State) {r q : FReg} (v : Word) (h : q ≠ r) :
    (s.setFpr r v).readFpr q = s.readFpr q := by
  have : r.toNat ≠ q.toNat := fun e => h (BitVec.eq_of_toNat_eq e).symm
  simp [State.readFpr, State.setFpr, this]

/-! ## Addresses and widths -/

theorem low32_low32 (a : Word) : low32 (low32 a) = low32 a := by
  simp [low32, BitVec.and_assoc]

/-- An effective address of the current mode fits the implementation's registers. -/
theorem fits_addressIn (c : Config) (m a : Word) : fits c (addressIn c m a) = true := by
  simp only [fits, truncXlen, addressIn, beq_iff_eq]
  split
  · rfl
  · simp_all [low32_low32]

@[simp] theorem fits_truncXlen (c : Config) (v : Word) : fits c (truncXlen c v) = true := by
  simp only [fits, truncXlen, beq_iff_eq]
  split
  · rfl
  · exact low32_low32 v

@[simp] theorem fits_maskEa (s : State) (a : Word) : fits s.cfg (s.maskEa a) = true :=
  fits_addressIn _ _ _

/-- Forming an address in a mode keeps its two low-order bits. -/
theorem wordAligned_addressIn (c : Config) (m a : Word) :
    wordAligned (addressIn c m a) = wordAligned a := by
  simp only [wordAligned, addressIn]
  split
  · rfl
  · have : low32 a &&& 3 = a &&& 3 := by simp [low32, BitVec.and_assoc]
    rw [this]

/-! ## Taking an exception -/

/-- Entry leaves the registers an exception writes as the interrupted state determines them. -/
theorem takeException_takenFrom (e : Exc) (addr : Word) (s : State) :
    TakenFrom s (takeException e addr s) e addr := ⟨rfl, rfl, rfl, rfl, rfl, rfl, rfl, rfl⟩

/-- Entry writes nothing but the registers of entry and the request latches. -/
theorem takeException_entryFrame (e : Exc) (addr : Word) (s : State) :
    EntryFrame s (takeException e addr s) := by
  unfold EntryFrame takeException
  rfl

/-- The information bits lie in SRR1 bits 33-36 and 42-47. -/
theorem srr1Info_and (e : Exc) : e.srr1Info &&& 0x783F0000 = e.srr1Info := by
  cases e with
  | isi cause => cases cause <;> decide
  | program cause later => cases cause <;> cases later <;> decide
  | _ => exact BitVec.zero_and

/-- Two masks in the other order. -/
theorem and_swap (a b m : Word) : a &&& b &&& m = a &&& m &&& b := by
  rw [BitVec.and_assoc, BitVec.and_comm b m, ← BitVec.and_assoc]

/-- SRR1 bits 33-36 and 42-47 of a saved image are the exception's information bits (60 R272). -/
theorem saveImage_information (c : Config) (e : Exc) (m : Word) :
    saveImage c e m &&& 0x783F0000 = e.srr1Info := by
  have hk (range : Word) (h : range &&& 0x783F0000 = 0#64) :
      ((m &&& if c.copyReserved then range else range &&& savedDefinedMask c) ||| e.srr1Info)
        &&& 0x783F0000 = e.srr1Info := by
    have : (if c.copyReserved then range else range &&& savedDefinedMask c) &&& 0x783F0000 = 0#64 := by
      split
      · exact h
      · rw [and_swap, h, BitVec.zero_and]
    rw [BitVec.and_or_distrib_right, BitVec.and_assoc, this, BitVec.and_zero, BitVec.zero_or, srr1Info_and]
  have hc : copyMask c &&& 0x783F0000 = 0#64 := by unfold copyMask; split <;> decide
  have hl (v : Word) (h : v &&& 0x783F0000 = e.srr1Info) :
      (v &&& ~~~(0x2 : Word)) &&& 0x783F0000 = e.srr1Info := by
    rw [and_swap, h, ← srr1Info_and, BitVec.and_assoc]; congr 1
  unfold saveImage
  cases e with
  | isi cause => exact hk 0xFFFF (by decide)
  | systemReset lost => cases lost <;> first | exact hk _ hc | exact hl _ (hk _ hc)
  | machineCheck lost => cases lost <;> first | exact hk _ hc | exact hl _ (hk _ hc)
  | _ => exact hk _ hc

/-! ## Admission -/

/-- A provided instruction of valid form that is not privileged in user mode and not floating-point with
`MSR[FP]` = 0 is admitted. -/
theorem admit_pass {i : Instr} {s : State} {k : State → Result} (hp : i.provided s.cfg = true)
    (hv : i.validForm = true) (hu : (i.privileged && msrPR s.context) = false)
    (hf : (i.isFloat && !msrFP s.context) = false) : whenAdmitted i s k = k s := by
  simp [whenAdmitted, hp, hv, hu, hf]

/-- A provided instruction of valid form, neither privileged nor floating-point, is admitted. -/
theorem admit_plain {i : Instr} {s : State} (hp : i.provided s.cfg = true) (hv : i.validForm = true)
    (hu : i.privileged = false) (hf : i.isFloat = false) (k : State → Result) : whenAdmitted i s k = k s :=
  admit_pass hp hv (by simp [hu]) (by simp [hf])

/-- A provided floating-point instruction of valid form is admitted with `MSR[FP]` = 1. -/
theorem admit_float {i : Instr} {s : State} (hp : i.provided s.cfg = true) (hv : i.validForm = true)
    (hu : i.privileged = false) (hf : msrFP s.context = true) (k : State → Result) :
    whenAdmitted i s k = k s :=
  admit_pass hp hv (by simp [hu]) (by simp [hf])

/-- The exceptions admission can raise. -/
def admissionException : List Exc :=
  [.program .illegal false, .program .privileged false, .fpUnavailable]

/-- What admission can do: raise one of its exceptions, or go on. -/
theorem admit_cases (i : Instr) (s : State) (k : State → Result) :
    (∃ e ∈ admissionException, whenAdmitted i s k = raise e s) ∨ whenAdmitted i s k = k s := by
  unfold whenAdmitted admissionException
  split
  · exact .inl ⟨_, by simp, rfl⟩
  · split
    · exact .inl ⟨_, by simp, rfl⟩
    · split
      · exact .inl ⟨_, by simp, rfl⟩
      · exact .inr rfl

/-! ## The storage procedure -/

/-- A clear access is performed. -/
theorem perform_clear {s : State} {a : Access} (h : clear s a = true) (part : Nat → State → State)
    (body : State → State) : perform a part body s = .next (body s).finish := by
  simp only [clear, Bool.and_eq_true, beq_iff_eq, Option.isNone_iff_eq_none] at h
  simp [perform, h.1.1, h.1.2, h.2]

/-- What a bus error can lead to. -/
theorem busError_cases (part : State → State) (s : State) :
    busError part s = .fault .noMemory ∨
      busError part s =
        .next (takeException (.machineCheck s.cfg.busErrorLost) s.cia (part s)) ∨
      busError part s = .next { part s with checkstop := true, mcheckReq := false } := by
  unfold busError machineCheckAt
  split
  · split
    · exact .inr (.inl rfl)
    · exact .inr (.inr rfl)
  · exact .inl rfl

/-- What the storage procedure can lead to: boundedly-undefined results, an alignment exception, a DSI, a
bus error, or the operation. -/
theorem perform_cases (a : Access) (part : Nat → State → State) (body : State → State) (s : State) :
    (s.alignChoice a = .undefined ∧ perform a part body s = .next (boundedlyUndefined s).complete) ∨
    (s.alignChoice a = .exception ∧ perform a part body s =
      raise (.alignment (s.alignImage a) a.ea) (part (s.boundaryReach a) s)) ∨
    (s.alignChoice a = .correct ∧ ∃ f, s.dataFault a = some f ∧
      perform a part body s = raise (.dsi f.dsisr f.dar) (part f.reach s)) ∨
    (s.alignChoice a = .correct ∧ s.dataFault a = none ∧ ∃ n, s.firstAbsent a = some n ∧
      perform a part body s = busError (part n) s) ∨
    (clear s a = true ∧ perform a part body s = .next (body s).finish) := by
  unfold perform clear
  cases hc : s.alignChoice a with
  | undefined => exact .inl ⟨rfl, rfl⟩
  | exception => exact .inr (.inl ⟨rfl, rfl⟩)
  | correct =>
    cases hd : s.dataFault a with
    | some f => exact .inr (.inr (.inl ⟨rfl, f, rfl, rfl⟩))
    | none =>
      cases hb : s.firstAbsent a with
      | some n => exact .inr (.inr (.inr (.inl ⟨rfl, rfl, n, rfl, rfl⟩)))
      | none => exact .inr (.inr (.inr (.inr ⟨by simp, rfl⟩)))

/-! ## The step -/

/-- What running a fetched word can lead to: an illegal-instruction exception, a stop, or the
instruction's next state traced. -/
theorem runWord_next {w : InstWord} {s t : State} (h : runWord w s = .next t) :
    (∃ r, decode (bytesOfWord w) = .error r ∧
      t = takeException (.program .illegal false) s.cia s) ∨
    ∃ i rest u, decode (bytesOfWord w) = .ok (i, rest) ∧ exec i s = .next u ∧
      t = traceAfter i (msrSE s.context) (msrBE s.context) u := by
  unfold runWord at h
  split at h
  · refine .inl ⟨_, by assumption, ?_⟩
    simpa [raise] using h.symm
  · rename_i i rest hd
    split at h
    · exact .inr ⟨i, rest, _, hd, by assumption, by simpa using h.symm⟩
    · simp at h
    · simp at h

/-- What a step that answers a next state has done. -/
theorem step_next {s t : State} (h : step s = .next t) :
    ((beginStep s).checkstop = true ∧ t = beginStep s) ∨
    (beginStep s).checkstop = false ∧
      ((∃ u, boundaryException (beginStep s) = some u ∧ t = advance u) ∨
        boundaryException (beginStep s) = none ∧
          ((asleep (beginStep s) = true ∧ t = advance (beginStep s)) ∨
            (asleep (beginStep s) = false ∧
              ∃ u, runInstruction (beginInstruction (beginStep s)) = .next u ∧
                t = advance (settle (beginStep s) u)))) := by
  unfold step at h
  simp only at h
  split at h
  · exact .inl ⟨by assumption, by simpa using h.symm⟩
  · refine .inr ⟨by simpa using ‹¬(beginStep s).checkstop = true›, ?_⟩
    split at h
    · exact .inl ⟨_, by assumption, by simpa using h.symm⟩
    · refine .inr ⟨by assumption, ?_⟩
      split at h
      · exact .inl ⟨by assumption, by simpa using h.symm⟩
      · refine .inr ⟨by simpa using ‹¬asleep (beginStep s) = true›, ?_⟩
        split at h
        · exact ⟨_, by assumption, by simpa using h.symm⟩
        · simp at h
        · simp at h

/-- What running an instruction from its address can lead to. -/
theorem runInstruction_next {s t : State} (h : runInstruction s = .next t) :
    (∃ c, s.fetch = .isi c ∧ t = takeException (.isi c) s.cia s) ∨
    (s.fetch = .noMemory ∧ busError (fun u => u) s = .next t) ∨
    ∃ w, s.fetch = .word w ∧ runWord w (s.clobber (msrIR s.context) 0) = .next t := by
  unfold runInstruction at h
  split at h
  · exact .inl ⟨_, by assumption, by simpa [raise] using h.symm⟩
  · exact .inr (.inl ⟨by assumption, h⟩)
  · exact .inr (.inr ⟨_, by assumption, h⟩)

/-- The exceptions the trace check can take. -/
def traceException : List Exc := [.trace, .program .fpEnabled true]

/-- Tracing leaves the state or takes one of its exceptions. -/
theorem traceAfter_cases (i : Instr) (se be : Bool) (t : State) :
    traceAfter i se be t = t ∨
      (t.taken = false ∧ t.checkstop = false ∧
        ∃ e ∈ traceException, traceAfter i se be t = takeException e t.nia t) := by
  unfold traceAfter
  split
  · refine .inr ⟨by simp_all, by simp_all, ?_⟩
    split
    · exact ⟨_, by simp [traceException], rfl⟩
    · exact ⟨_, by simp [traceException], rfl⟩
  · exact .inl rfl

/-- A boundary exception enters checkstop or takes an exception, which writes neither DSISR nor DAR, at the
next instruction address. -/
theorem boundaryExceptionIn_cases {m : Word} {s t : State} (h : boundaryExceptionIn m s = some t) :
    t = { s with checkstop := true, mcheckReq := false } ∨
      ∃ e, Exc.fault? e = none ∧ t = takeException e s.nia s := by
  unfold boundaryExceptionIn machineCheckAt at h
  repeat' split at h
  all_goals first
    | exact .inr ⟨_, rfl, (Option.some.inj h).symm⟩
    | exact .inl (Option.some.inj h).symm
    | simp at h

/-- The exception of a boundary is due under some MSR value. -/
theorem boundaryException_some {s t : State} (h : boundaryException s = some t) :
    ∃ m, boundaryExceptionIn m s = some t := by
  unfold boundaryException at h
  split at h
  · simp at h
  · exact ⟨_, h⟩

/-- No exception is due under an MSR value just when no request stands, no floating-point exception is
pending under it, and `EE` masks the external and decrementer ones or none is pending. -/
theorem boundaryExceptionIn_eq_none {m : Word} {s : State} :
    boundaryExceptionIn m s = none ↔ s.sresetReq = false ∧ s.mcheckReq = false ∧
      floatPending m s = false ∧ (msrEE m = true → s.extSignal = false ∧ s.decPending = false) := by
  unfold boundaryExceptionIn
  cases s.sresetReq <;> cases s.mcheckReq <;> cases floatPending m s <;> cases msrEE m <;>
    cases s.extSignal <;> cases s.decPending <;> simp

/-- The steps 1 to 5 of 60 R263 as a choice between states. -/
theorem boundary_choice {α : Type} (reset check fex e0 e1 m0 m1 ee ext dec : Bool) (r c f x d : α) :
    (if (if reset then some r else if check then some c else if fex && (e0 || e1) then some f
        else if ee && ext then some x else if ee && dec then some d else none).isNone then none
      else if reset then some r else if check then some c
        else if fex && ((e0 || m0) || (e1 || m1)) then some f
        else if ee && ext then some x else if ee && dec then some d else none) =
    if reset then some r else if check then some c
      else if fex && (e0 || e1 || (ee && (ext || dec) && (m0 || m1))) then some f
      else if ee && ext then some x else if ee && dec then some d else none := by
  cases reset <;> cases check <;> cases fex <;> cases e0 <;> cases e1 <;> cases ee <;> cases ext <;>
    cases dec <;> simp

/-- The exception of a boundary, step by step: the first of 60 R263 steps 1 to 5 in the context in force,
but that the `FE0` and `FE1` of the MSR count too where an external or decrementer exception is due. -/
theorem boundaryException_eq (s : State) : boundaryException s =
    if s.sresetReq then some (takeException (.systemReset s.sresetLost) s.nia s)
    else if s.mcheckReq then some (machineCheckAt (msrME s.context) s.nia s.mcheckLost s)
    else if s.fex && (msrFE0 s.context || msrFE1 s.context ||
        (msrEE s.context && (s.extSignal || s.decPending) && (msrFE0 s.msr || msrFE1 s.msr))) then
      some (takeException (.program .fpEnabled true) s.nia s)
    else if msrEE s.context && s.extSignal then some (takeException .external s.nia s)
    else if msrEE s.context && s.decPending then some (takeException .decrementer s.nia s)
    else none := by
  have h0 : msrFE0 (s.context ||| (s.msr &&& maskFE)) = (msrFE0 s.context || msrFE0 s.msr) := by
    simp [msrFE0, maskFE, BitVec.getMsbD_or, BitVec.getMsbD_and]
  have h1 : msrFE1 (s.context ||| (s.msr &&& maskFE)) = (msrFE1 s.context || msrFE1 s.msr) := by
    simp [msrFE1, maskFE, BitVec.getMsbD_or, BitVec.getMsbD_and]
  have h2 : msrEE (s.context ||| (s.msr &&& maskFE)) = msrEE s.context := by
    simp [msrEE, maskFE, BitVec.getMsbD_or, BitVec.getMsbD_and]
  have h3 : msrME (s.context ||| (s.msr &&& maskFE)) = msrME s.context := by
    simp [msrME, maskFE, BitVec.getMsbD_or, BitVec.getMsbD_and]
  simp only [boundaryException, boundaryExceptionIn, floatPending, h0, h1, h2, h3]
  exact boundary_choice _ _ _ _ _ _ _ _ _ _ _ _ _ _ _

/-- No exception is due at a boundary just when none is in the context in force. -/
theorem boundaryException_eq_none {s : State} :
    boundaryException s = none ↔ boundaryExceptionIn s.context s = none := by
  constructor
  · intro h
    have h : _ = none := (boundaryException_eq s).symm.trans h
    rw [boundaryExceptionIn_eq_none]
    repeat' split at h
    all_goals simp_all [floatPending]
  · intro h; simp [boundaryException, h]

/-- With no window open the exception of a boundary is that of the MSR. -/
theorem boundaryException_closed {s : State} (h : s.window = []) :
    boundaryException s = boundaryExceptionIn s.msr s := by
  have hm : s.msr ||| (s.msr &&& maskFE) = s.msr := by
    ext i; simp only [BitVec.getElem_or, BitVec.getElem_and]; cases s.msr[i] <;> simp
  unfold boundaryException
  rw [State.context_of_closed h, hm]
  split
  · simp_all
  · rfl

/-- Settling a boundary leaves what the instruction left, or takes the exception due there under the new
MSR. -/
theorem settle_cases (s t : State) :
    settle s t = t ∨ (s.window ≠ [] ∧ boundaryExceptionIn s.msr s = some (settle s t)) := by
  unfold settle
  split
  · exact .inl rfl
  · split
    · cases h : boundaryExceptionIn s.msr s with
      | none => exact .inl rfl
      | some u => exact .inr ⟨by assumption, rfl⟩
    · exact .inl rfl

/-- With no window open nothing remains to settle. -/
@[simp] theorem settle_closed {s : State} (h : s.window = []) (t : State) : settle s t = t := by
  simp [settle, h]

/-- Fields that time leaves alone. -/
theorem advance_frame (s : State) :
    advance s = { s with dec := (advance s).dec, decPending := (advance s).decPending,
                         tickCount := (advance s).tickCount, draws := (advance s).draws } := by
  unfold advance countDown
  split
  · rfl
  · split <;> rfl

/-- The environment's moves never write the configuration record. -/
theorem applyMoves_cfg (l : List EnvMove) (s : State) : (applyMoves l s).cfg = s.cfg := by
  induction l generalizing s with
  | nil => rfl
  | cons m rest ih =>
    rw [applyMoves, ih]
    cases m with
    | hardReset => simp only [applyMove, hardReset]
    | _ => rfl

@[simp] theorem beginStep_cfg (s : State) : (beginStep s).cfg = s.cfg := by
  unfold beginStep
  split
  · rfl
  · rw [applyMoves_cfg]

end Sys2Proof.Machine
end

