-- ==== Sys2Proof/Laws/Transfer.lean ====
section
/-! SUPPORT. One lemma for each shared operation of Machine/Transfer.lean: what it does where its access is
clear. -/

namespace Sys2Proof.Machine

/-! ## Finishing -/

/-- What the end of a storage instruction leaves. -/
theorem State.finish_eq (b : State) :
    b.finish = { b with nia := b.finish.nia, srr0 := b.finish.srr0, srr1 := b.finish.srr1 } := by
  unfold State.finish State.clobber
  split <;> rfl

/-- A state that differs from `s` in no field the end of an instruction reads resumes when finished. -/
theorem resumes_finish {s b : State} (hc : b.cfg = s.cfg) (hm : b.msr = s.msr)
    (hw : b.window = s.window) (hd : b.draws = s.draws) (hi : b.cia = s.cia) (h0 : b.srr0 = s.srr0)
    (h1 : b.srr1 = s.srr1) : Resumes s b.finish := by
  have hx := State.context_congr hm hw hd
  refine ⟨?_, fun h => ?_⟩
  · unfold State.finish
    simp only [State.complete_nia, State.clobber_cia, hi]
    exact State.maskEa_congr (by simp [hc]) (by simp [hm]) (by simp [hw]) (by simp [hd]) _
  · simp only [mayClobber] at h
    simp [State.finish, State.clobber, hx, hc, h, h0, h1]

/-! ## Untranslated accesses -/

/-- With data translation off each byte translates to its effective address, without attributes. -/
theorem byteXlate_untranslated {s : State} (h : msrDR s.context = false) (a : Access) (i : Nat) :
    s.byteXlate a i = .ok (s.byteEa a i) {} := by
  simp only [State.byteXlate, State.translate, Access.kind]
  split <;> simp_all

/-- Memory without attributes meets no DSI condition. -/
@[simp] theorem conditionBits_plain (c : Config) (cls : AccessClass) (pa : Word) :
    conditionBits c cls (.ok pa {}) = 0 := by cases cls <;> rfl

/-! ## Loads -/

/-- A clear integer load without update. -/
theorem loadInt_clear {i : Instr} {s : State} {n : Nat} {conv : Word → Word} {rd : Reg} {ea : Word}
    (ha : ∀ k, whenAdmitted i s k = k s) (hc : clear s (intAccess i false n ea) = true) :
    ∃ t, loadInt i n conv rd none ea s = .next t ∧
      LoadsGpr s t rd (conv (s.operand (intAccess i false n ea))) := by
  rw [loadInt, ha]
  refine ⟨_, perform_clear hc _ _, resumes_finish rfl rfl rfl rfl rfl rfl rfl, ?_, ?_, ?_⟩
  · rw [State.finish_eq]; rfl
  · simp [State.updateBase, State.readGpr, State.setGpr]
  · intro r hr
    rw [List.mem_singleton] at hr
    have := State.readGpr_setGpr_other s (conv (s.operand (intAccess i false n ea))) hr
    simpa [State.updateBase, State.readGpr] using this

/-- A clear integer load with update, of valid form. -/
theorem loadInt_update_clear {i : Instr} {s : State} {n : Nat} {conv : Word → Word} {rd ra : Reg}
    {ea : Word} (ha : ∀ k, whenAdmitted i s k = k s) (hc : clear s (intAccess i false n ea) = true)
    (hr : ra ≠ rd) (he : fits s.cfg ea = true) :
    ∃ t, loadInt i n conv rd (some ra) ea s = .next t ∧
      LoadsGprUpdating s t rd (conv (s.operand (intAccess i false n ea))) ra ea := by
  rw [loadInt, ha]
  refine ⟨_, perform_clear hc _ _, resumes_finish rfl rfl rfl rfl rfl rfl rfl, ?_, ?_, ?_, ?_⟩
  · rw [State.finish_eq]; rfl
  · have h1 := State.readGpr_setGpr_other (s.setGpr rd (conv (s.operand (intAccess i false n ea)))) ea
      (Ne.symm hr)
    have h2 := State.readGpr_setGpr_same s rd (conv (s.operand (intAccess i false n ea)))
    simpa [State.updateBase, State.readGpr] using h1.trans h2
  · have h1 := State.readGpr_setGpr_same (s.setGpr rd (conv (s.operand (intAccess i false n ea)))) ra ea
    rw [State.setGpr_cfg, (by simpa [fits] using he : truncXlen s.cfg ea = ea)] at h1
    simpa [State.updateBase, State.readGpr] using h1
  · intro r hn
    simp only [List.mem_cons, List.not_mem_nil, or_false, not_or] at hn
    have h1 := State.readGpr_setGpr_other (s.setGpr rd (conv (s.operand (intAccess i false n ea)))) ea hn.2
    have h2 := State.readGpr_setGpr_other s (conv (s.operand (intAccess i false n ea))) hn.1
    simpa [State.updateBase, State.readGpr] using h1.trans h2

/-- A clear floating-point load without update. -/
theorem loadFloat_clear {i : Instr} {s : State} {n : Nat} {conv : Word → Word} {frd : FReg} {ea : Word}
    (ha : ∀ k, whenAdmitted i s k = k s) (hc : clear s (floatAccess i false n ea) = true) :
    ∃ t, loadFloat i n conv frd none ea s = .next t ∧
      LoadsFpr s t frd (conv (s.operand (floatAccess i false n ea))) := by
  rw [loadFloat, ha]
  refine ⟨_, perform_clear hc _ _, resumes_finish rfl rfl rfl rfl rfl rfl rfl, ?_, ?_, ?_⟩
  · rw [State.finish_eq]; rfl
  · simp [State.updateBase, State.readFpr, State.setFpr]
  · intro r hr
    have := State.readFpr_setFpr_other s (conv (s.operand (floatAccess i false n ea))) hr
    simpa [State.updateBase, State.readFpr] using this

/-- A clear floating-point load with update. -/
theorem loadFloat_update_clear {i : Instr} {s : State} {n : Nat} {conv : Word → Word} {frd : FReg}
    {ra : Reg} {ea : Word} (ha : ∀ k, whenAdmitted i s k = k s)
    (hc : clear s (floatAccess i false n ea) = true) (he : fits s.cfg ea = true) :
    ∃ t, loadFloat i n conv frd (some ra) ea s = .next t ∧
      LoadsFprUpdating s t frd (conv (s.operand (floatAccess i false n ea))) ra ea := by
  rw [loadFloat, ha]
  refine ⟨_, perform_clear hc _ _, resumes_finish rfl rfl rfl rfl rfl rfl rfl, ?_, ?_, ?_,
    ?_, ?_⟩
  · rw [State.finish_eq]; rfl
  · simp [State.updateBase, State.readFpr, State.setFpr]
  · intro r hr
    have := State.readFpr_setFpr_other s (conv (s.operand (floatAccess i false n ea))) hr
    simpa [State.updateBase, State.readFpr] using this
  · have h1 := State.readGpr_setGpr_same (s.setFpr frd (conv (s.operand (floatAccess i false n ea)))) ra ea
    rw [State.setFpr_cfg, (by simpa [fits] using he : truncXlen s.cfg ea = ea)] at h1
    simpa [State.updateBase, State.readGpr] using h1
  · intro r hn
    rw [List.mem_singleton] at hn
    have h1 := State.readGpr_setGpr_other (s.setFpr frd (conv (s.operand (floatAccess i false n ea)))) ea hn
    simpa [State.updateBase, State.readGpr, State.setFpr_gpr] using h1

/-! ## Stores -/

theorem mem_keptStores_all {s : State} {a : Access} {data : List Byte} {p : Word × Byte} :
    p ∈ s.keptStores a data (fun _ => true) ↔ ∃ i, ∃ h : i < data.length, (s.bytePa a i, data[i]) = p := by
  simp only [State.keptStores, List.mem_map, List.mem_filter, and_true, Prod.exists]
  constructor
  · rintro ⟨b, i, h, rfl⟩
    obtain ⟨hlt, hb⟩ := List.mem_zipIdx' h
    exact ⟨i, hlt, by rw [hb]⟩
  · rintro ⟨i, h, rfl⟩
    exact ⟨data[i], i, List.mk_mem_zipIdx_iff_getElem?.2 (by simp [h]), rfl⟩

/-- Storing every byte of an operand stores each at its place. -/
theorem storedAt_keptStores {s : State} {a : Access} {data : List Byte} {byte : Nat → Byte}
    (hm : s.mem.wf = true) (hl : data.length = a.len)
    (hb : ∀ i, i < a.len → data[i]? = some (byte i)) :
    StoredAt s a byte (writeBytes s.mem (s.keptStores a data fun _ => true)) := by
  refine ⟨fun p hp => ?_, fun i hi hlast => ?_⟩
  · refine read_writeBytes_other _ _ _ fun q hq => ?_
    obtain ⟨i, h, rfl⟩ := mem_keptStores_all.1 hq
    exact hp i (hl ▸ h)
  · have hi' : i < data.length := hl ▸ hi
    have hd : s.keptStores a data (fun _ => true) =
        (s.keptStores a (data.take i) fun _ => true) ++ (s.bytePa a i, data[i]) ::
          ((data.drop (i + 1)).zipIdx (i + 1)).map fun p => (s.bytePa a p.2, p.1) := by
      have : data = data.take i ++ data[i] :: data.drop (i + 1) := by simp
      simp only [State.keptStores, List.filter_true]
      conv => lhs; rw [this, List.zipIdx_append]
      rw [List.zipIdx_cons, List.map_append, List.map_cons]
      simp [Nat.min_eq_left (Nat.le_of_lt hi')]
    rw [hd, read_writeBytes_last hm]
    · have := hb i hi
      rw [List.getElem?_eq_getElem hi'] at this
      exact Option.some.inj this
    · intro q hq
      simp only [List.mem_map, Prod.exists] at hq
      obtain ⟨b, j, hj, rfl⟩ := hq
      have h1 := List.snd_lt_add_of_mem_zipIdx hj
      have h2 := List.le_snd_of_mem_zipIdx hj
      refine hlast j (by simpa using h2) ?_
      simp only [List.length_drop] at h1
      omega

theorem length_toBytes (n : Nat) (v : Word) : (toBytes n v).length = n := by
  induction n with
  | zero => rfl
  | succ n ih => simp [toBytes, ih]

theorem getElem?_toBytes {n i : Nat} (v : Word) (h : i < n) :
    (toBytes n v)[i]? = some ((v >>> (8 * (n - 1 - i))).setWidth 8) := by
  induction n generalizing i with
  | zero => omega
  | succ n ih =>
    cases i with
    | zero => simp [toBytes]
    | succ i =>
      simp only [toBytes, List.getElem?_cons_succ]
      rw [ih (by omega)]
      congr 4
      omega

@[simp] theorem length_dataBytes (s : State) (n : Nat) (v : Word) : (s.dataBytes n v).length = n := by
  unfold State.dataBytes State.orderBytes
  split <;> simp [length_toBytes]

/-- The bytes of a value in address order. -/
theorem getElem?_dataBytes {s : State} {n i : Nat} (v : Word) (h : i < n) :
    (s.dataBytes n v)[i]? = some (valueByte s n v i) := by
  unfold State.dataBytes State.orderBytes valueByte
  split
  · rw [List.getElem?_reverse (by simpa [length_toBytes] using h), length_toBytes,
      getElem?_toBytes _ (by omega)]
    congr 4
    omega
  · exact getElem?_toBytes v h

@[simp] theorem length_wordBytes (s : State) (a : Access) (rs : Reg) :
    (s.wordBytes a rs).length = a.len := by
  simp [State.wordBytes]

/-- In big-endian mode, and of a string in either, the most significant byte of a register comes first. -/
theorem getElem?_wordBytes {s : State} {a : Access} {i : Nat} (rs : Reg) (h : i < a.len)
    (ho : (a.cls == .multiple && msrLE s.context) = false) :
    (s.wordBytes a rs)[i]? = some (registerByte s rs i) := by
  simp [State.wordBytes, registerByte, h, ho]

/-- A clear multiple or string is big-endian: in little-endian mode it has no alternative to the alignment
exception. -/
theorem bigEndian_of_clear {s : State} {a : Access} (hc : clear s a = true)
    (hk : a.cls = .multiple ∨ a.cls = .string) : msrLE s.context = false := by
  simp only [clear, Bool.and_eq_true, beq_iff_eq, State.alignChoice] at hc
  cases hl : msrLE s.context with
  | false => rfl
  | true =>
    have : s.alignForced a = true := by
      rcases hk with h | h <;> simp [State.alignForced, h, hl]
    simp [this] at hc

/-- Four bytes as the number they are, most significant first. -/
theorem ofBytes_four (b0 b1 b2 b3 : Byte) : ofBytes [b0, b1, b2, b3] =
    b0.setWidth 64 <<< 24 ||| b1.setWidth 64 <<< 16 ||| b2.setWidth 64 <<< 8 ||| b3.setWidth 64 := by
  simp [ofBytes, BitVec.shiftLeft_or_distrib, ← BitVec.shiftLeft_add]

theorem or_reversed (a b c d : Word) : a ||| b ||| c ||| d = d ||| c ||| b ||| a := by
  rw [BitVec.or_comm, BitVec.or_comm (a ||| b) c, BitVec.or_comm a b, ← BitVec.or_assoc,
    ← BitVec.or_assoc]

/-- The word the registers of a multiple or string take is the one its bytes in memory make. -/
theorem State.wordAt_eq (s : State) (a : Access) (j : Nat) : s.wordAt a j = registerWord s a j := by
  let byte (k : Nat) : Byte := if 4 * j + k < a.len then Memory.read s.mem (s.bytePa a (4 * j + k)) else 0
  have hb (k n : Nat) : (if 4 * j + k < a.len then
      (Memory.read s.mem (s.bytePa a (4 * j + k))).setWidth 64 <<< n else (0 : Word)) =
      (byte k).setWidth 64 <<< n := by
    simp only [byte]; split <;> simp
  have hw : s.wordAt a j = ofBytes (s.orderWord a [byte 0, byte 1, byte 2, byte 3]) := rfl
  simp only [hw, registerWord, hb]
  clear_value byte
  by_cases hc : a.cls = .multiple ∧ msrLE s.context = true
  · simp only [State.orderWord, State.orderBytes, hc.1, hc.2, beq_self_eq_true, if_true, and_self,
      List.reverse_cons, List.reverse_nil, List.nil_append, List.cons_append, ofBytes_four]
    simpa using or_reversed _ _ _ _
  · have ho : s.orderWord a [byte 0, byte 1, byte 2, byte 3] = [byte 0, byte 1, byte 2, byte 3] := by
      unfold State.orderWord State.orderBytes
      split
      · rw [if_neg fun h => hc ⟨by simpa using ‹(a.cls == AccessClass.multiple) = true›, h⟩]
      · rfl
    simp [ho, hc, ofBytes_four]

/-- A clear store of bytes, without update. -/
theorem perform_store_clear {s : State} {a : Access} {data : List Byte} {byte : Nat → Byte}
    (part : Nat → State → State) (hc : clear s a = true) (hm : s.mem.wf = true)
    (hl : data.length = a.len) (hb : ∀ i, i < a.len → data[i]? = some (byte i)) :
    ∃ t, perform a part (storeBytes a data) s = .next t ∧ StoresBytes s t a byte := by
  refine ⟨_, perform_clear hc _ _, resumes_finish rfl rfl rfl rfl rfl rfl rfl, ?_, ?_⟩
  · rw [State.finish_eq]; rfl
  · simpa using storedAt_keptStores hm hl hb

/-- A clear store of bytes, with update. -/
theorem perform_store_update_clear {s : State} {a : Access} {data : List Byte} {byte : Nat → Byte}
    {ra : Reg} (part : Nat → State → State) (hc : clear s a = true) (hm : s.mem.wf = true)
    (hl : data.length = a.len) (hb : ∀ i, i < a.len → data[i]? = some (byte i))
    (he : fits s.cfg a.ea = true) :
    ∃ t, perform a part (fun s => (storeBytes a data s).updateBase (some ra) a.ea) s = .next t ∧
      StoresBytesUpdating s t a byte ra := by
  refine ⟨_, perform_clear hc _ _, resumes_finish rfl rfl rfl rfl rfl rfl rfl, ?_, ?_, ?_, ?_⟩
  · rw [State.finish_eq]; rfl
  · simpa [State.updateBase] using storedAt_keptStores hm hl hb
  · have h1 := State.readGpr_setGpr_same (storeBytes a data s) ra a.ea
    rw [storeBytes_cfg, (by simpa [fits] using he : truncXlen s.cfg a.ea = a.ea)] at h1
    simpa [State.updateBase, State.readGpr] using h1
  · intro r hn
    rw [List.mem_singleton] at hn
    have h1 := State.readGpr_setGpr_other (storeBytes a data s) a.ea hn
    simpa [State.updateBase, State.readGpr] using h1

/-- A clear integer store without update. -/
theorem storeInt_clear {i : Instr} {s : State} {n : Nat} {v ea : Word} (ha : ∀ k, whenAdmitted i s k = k s)
    (hc : clear s (intAccess i true n ea) = true) (hm : s.mem.wf = true) :
    ∃ t, storeInt i n v none ea s = .next t ∧
      StoresBytes s t (intAccess i true n ea) (valueByte s n v) := by
  rw [storeInt, ha]
  exact perform_store_clear _ hc hm (by simp [intAccess]) fun i hi => getElem?_dataBytes v hi

/-- A clear integer store with update. -/
theorem storeInt_update_clear {i : Instr} {s : State} {n : Nat} {v ea : Word} {ra : Reg}
    (ha : ∀ k, whenAdmitted i s k = k s) (hc : clear s (intAccess i true n ea) = true) (hm : s.mem.wf = true)
    (he : fits s.cfg ea = true) :
    ∃ t, storeInt i n v (some ra) ea s = .next t ∧
      StoresBytesUpdating s t (intAccess i true n ea) (valueByte s n v) ra := by
  rw [storeInt, ha]
  exact perform_store_update_clear _ hc hm (by simp [intAccess]) (fun i hi => getElem?_dataBytes v hi) he

/-- A clear floating-point store without update. -/
theorem storeFloat_clear {i : Instr} {s : State} {n : Nat} {v ea : Word} (ha : ∀ k, whenAdmitted i s k = k s)
    (hc : clear s (floatAccess i true n ea) = true) (hm : s.mem.wf = true) :
    ∃ t, storeFloat i n v none ea s = .next t ∧
      StoresBytes s t (floatAccess i true n ea) (valueByte s n v) := by
  rw [storeFloat, ha]
  exact perform_store_clear _ hc hm (by simp [floatAccess]) fun i hi => getElem?_dataBytes v hi

/-- A clear floating-point store with update. -/
theorem storeFloat_update_clear {i : Instr} {s : State} {n : Nat} {v ea : Word} {ra : Reg}
    (ha : ∀ k, whenAdmitted i s k = k s) (hc : clear s (floatAccess i true n ea) = true) (hm : s.mem.wf = true)
    (he : fits s.cfg ea = true) :
    ∃ t, storeFloat i n v (some ra) ea s = .next t ∧
      StoresBytesUpdating s t (floatAccess i true n ea) (valueByte s n v) ra := by
  rw [storeFloat, ha]
  exact perform_store_update_clear _ hc hm (by simp [floatAccess]) (fun i hi => getElem?_dataBytes v hi) he

/-! ## Multiples and strings -/

theorem loadWords_eq (s : State) (a : Access) (rd : Reg) (keep : Nat → Bool) (n : Nat) (t : State) :
    loadWords s a rd keep n t = { t with gpr := (loadWords s a rd keep n t).gpr } := by
  induction n generalizing t with
  | zero => rfl
  | succ n ih =>
    simp only [loadWords]
    split
    · have hu := ih t
      generalize loadWords s a rd keep n t = u at hu ⊢
      rw [hu]
      rfl
    · exact ih t

/-- The registers after a load of at most thirty-two words. -/
theorem readGpr_loadWords (s : State) (a : Access) (rd : Reg) {n : Nat} (hn : n ≤ 32) (r : Reg) :
    (loadWords s a rd (fun _ => true) n s).readGpr r =
      if (r - rd).toNat < n then truncXlen s.cfg (registerWord s a (r - rd).toNat) else s.readGpr r := by
  induction n with
  | zero => simp [loadWords]
  | succ n ih =>
    have hcfg : (loadWords s a rd (fun _ => true) n s).cfg = s.cfg := by rw [loadWords_eq]
    simp only [loadWords, if_true]
    by_cases h : r = rd + BitVec.ofNat 5 n
    · subst h
      have hk : (rd + BitVec.ofNat 5 n - rd).toNat = n := by
        rw [BitVec.add_comm, BitVec.add_sub_cancel]; simp; omega
      rw [State.readGpr_setGpr_same, hk, if_pos (by omega), hcfg, State.wordAt_eq]
    · have hk : (r - rd).toNat ≠ n := by
        intro e
        apply h
        have : r - rd = BitVec.ofNat 5 n := by
          apply BitVec.eq_of_toNat_eq
          rw [e]; simp; omega
        rw [← this, BitVec.add_comm, BitVec.sub_add_cancel]
      rw [State.readGpr_setGpr_other _ _ h, ih (by omega)]
      by_cases hlt : (r - rd).toNat < n
      · rw [if_pos hlt, if_pos (by omega)]
      · rw [if_neg hlt, if_neg (by omega)]

/-- A clear load of words. -/
theorem perform_words_clear {s : State} {a : Access} {rd : Reg} (part : Nat → State → State)
    (hc : clear s a = true) (hn : a.words ≤ 32) :
    ∃ t, perform a part (fun s => loadWords s a rd (fun _ => true) a.words s) s = .next t ∧
      LoadsWords s t a rd := by
  have he := loadWords_eq s a rd (fun _ => true) a.words s
  refine ⟨_, perform_clear hc _ _, ?_, ?_, fun r => ?_⟩
  · rw [he]; exact resumes_finish rfl rfl rfl rfl rfl rfl rfl
  · rw [State.finish_eq, he]
  · rw [← readGpr_loadWords s a rd hn r]
    simp [State.readGpr]

end Sys2Proof.Machine
end

