-- ==== Sys2Proof/Laws/Partial.lean ====
section
/-! SUPPORT. What partial execution can do: each of its operations leaves at most what `Abandons` says, and
every storage instruction that is admitted is `perform` with one of them. -/

namespace Sys2Proof.Machine

/-- What the provers cite of a partial execution: which fields it may change, and that it stays within
`Abandons`. -/
structure PartialFrame (s : State) (a : Access) (t : State) : Prop where
  fields : t = { s with gpr := t.gpr, fpr := t.fpr, mem := t.mem, cr := t.cr, extOut := t.extOut }
  abandons : Abandons s t a

/-! ## Stores -/

/-- The stores that `keep` selects touch bytes of the operand alone. -/
theorem read_keptStores (s : State) (a : Access) (data : List Byte) (keep : Nat → Bool)
    (hl : data.length ≤ a.len) (p : Word) :
    Memory.read (writeBytes s.mem (s.keptStores a data keep)) p = Memory.read s.mem p ∨
      ∃ i, i < a.len ∧ s.bytePa a i = p := by
  by_cases h : ∃ i, i < a.len ∧ s.bytePa a i = p
  · exact .inr h
  · refine .inl (read_writeBytes_other _ _ _ fun q hq hqp => h ?_)
    simp only [State.keptStores, List.mem_map, List.mem_filter] at hq
    obtain ⟨⟨b, i⟩, ⟨hx, -⟩, rfl⟩ := hq
    exact ⟨i, by have := (List.mem_zipIdx' hx).1; omega, hqp⟩

theorem partialStore_read (a : Access) (data : List Byte) (hl : data.length ≤ a.len) (n : Nat) (s : State)
    (p : Word) : Memory.read (partialStore a data n s).mem p = Memory.read s.mem p ∨
      ∃ i, i < a.len ∧ s.bytePa a i = p := read_keptStores s a data _ hl p

/-- A partially executed store that is neither `dcbz` nor a store conditional. -/
theorem partialStore_frame (a : Access) (data : List Byte) (hl : data.length ≤ a.len) (n : Nat)
    (s : State) (hs : a.store = true) (hc : a.cls = .int ∨ a.cls = .fp ∨ a.cls = .multiple ∨ a.cls = .string) :
    PartialFrame s a (partialStore a data n s) := by
  refine ⟨rfl, rfl, fun _ => .inl rfl, fun _ => .inl rfl, fun p => ?_, fun _ => .inl rfl, .inl rfl⟩
  refine (partialStore_read a data hl n s p).imp_right fun h => ⟨hs, ?_⟩
  rcases hc with h' | h' | h' | h' <;> simpa [h'] using h

/-- A replacement of CR0 leaves the other fields of CR alone. -/
theorem getMsbD_withCr0 (cr : BitVec 32) (v : BitVec 4) {k : Nat} (h : 4 ≤ k) :
    (withCr0 cr v).getMsbD k = cr.getMsbD k := by
  unfold withCr0
  rw [BitVec.getMsbD_append]
  by_cases hk : k < 32
  · simp [BitVec.getMsbD, show ¬ k < 4 by omega, hk, show k - 4 < 28 by omega,
      show 28 - 1 - (k - 4) = 32 - 1 - k by omega, show 32 - 1 - k < 28 by omega]
    exact fun _ => h
  · simp [BitVec.getMsbD, hk, show ¬ k < 4 by omega]; omega

theorem partialCond_frame (a : Access) (data : List Byte) (hl : data.length ≤ a.len) (n : Nat) (s : State)
    (hs : a.store = true) (hc : a.cls = .reserve) : PartialFrame s a (partialCond a data n s) := by
  have hm (p : Word) : Memory.read (partialCond a data n s).mem p = Memory.read s.mem p ∨
      (s.reservation.isSome = true ∧ ∃ i, i < a.len ∧ s.bytePa a i = p) := by
    unfold partialCond
    dsimp only
    split
    · rename_i h
      exact (partialStore_read a data hl n s p).imp_right fun h' => ⟨h, h'⟩
    · exact .inl rfl
  have hcr (k : Nat) : (partialCond a data n s).cr.getMsbD k = s.cr.getMsbD k ∨ k < 4 := by
    by_cases hk : k < 4
    · exact .inr hk
    · refine .inl ?_
      unfold partialCond
      dsimp only
      split <;> exact getMsbD_withCr0 _ _ (by omega)
  have hf : partialCond a data n s =
      { s with mem := (partialCond a data n s).mem, cr := (partialCond a data n s).cr } := by
    unfold partialCond; dsimp only; split <;> rfl
  refine ⟨by rw [hf], by rw [hf], fun r => ?_, fun r => ?_, fun p => ?_, fun k => ?_, ?_⟩
  · rw [hf]; exact .inl rfl
  · rw [hf]; exact .inl rfl
  · exact (hm p).imp_right fun h => ⟨hs, by simpa [hc] using h⟩
  · exact (hcr k).imp_right fun h => ⟨hs, hc, h⟩
  · rw [hf]; exact .inl rfl

/-- The physical addresses of a cache block agree above the block's offset bits. -/
theorem shiftRight_of_mem_block {s : State} {a : Access} {p : Word} (h : p ∈ s.block a) :
    p >>> s.cfg.blockLog = xlatePa (s.byteXlate a 0) >>> s.cfg.blockLog := by
  simp only [State.block, List.mem_map, List.mem_range] at h
  obtain ⟨i, hi, rfl⟩ := h
  generalize xlatePa (s.byteXlate a 0) = w
  generalize s.cfg.blockLog = n at *
  by_cases hn : n < 64
  · have hd : (2 : Nat) ^ n ∣ 2 ^ 64 := Nat.pow_dvd_pow 2 (by omega)
    have hlt : (2 : Nat) ^ n ≤ 2 ^ 64 := Nat.pow_le_pow_right (by omega) (by omega)
    have hw := w.isLt
    have hle : w.toNat / 2 ^ n * 2 ^ n ≤ w.toNat := Nat.div_mul_le_self _ _
    have hsum : w.toNat / 2 ^ n * 2 ^ n + i < 2 ^ 64 := by
      have h1 : w.toNat / 2 ^ n < 2 ^ 64 / 2 ^ n :=
        Nat.div_lt_of_lt_mul (by rw [Nat.mul_div_cancel' hd]; exact hw)
      have h2 : (w.toNat / 2 ^ n + 1) * 2 ^ n ≤ 2 ^ 64 / 2 ^ n * 2 ^ n := Nat.mul_le_mul_right _ h1
      rw [Nat.div_mul_cancel hd, Nat.add_mul] at h2
      omega
    apply BitVec.eq_of_toNat_eq
    simp only [BitVec.toNat_ushiftRight, BitVec.toNat_add, BitVec.toNat_shiftLeft,
      Nat.shiftRight_eq_div_pow, Nat.shiftLeft_eq, BitVec.toNat_ofNat]
    rw [Nat.mod_eq_of_lt (show w.toNat / 2 ^ n * 2 ^ n < 2 ^ 64 by omega),
      Nat.mod_eq_of_lt (show i < 2 ^ 64 by omega), Nat.mod_eq_of_lt hsum, Nat.add_comm,
      Nat.add_mul_div_right _ _ (Nat.two_pow_pos n), Nat.div_eq_of_lt hi, Nat.zero_add]
  · rw [BitVec.ushiftRight_eq_zero (by omega), BitVec.ushiftRight_eq_zero (by omega)]

theorem partialBlock_frame (a : Access) (n : Nat) (s : State) (hs : a.store = true) (hc : a.cls = .dcbz) :
    PartialFrame s a (partialBlock a n s) := by
  refine ⟨rfl, rfl, fun _ => .inl rfl, fun _ => .inl rfl, fun p => ?_, fun _ => .inl rfl, .inl rfl⟩
  by_cases h : p ∈ s.block a
  · exact .inr ⟨hs, by simpa [hc] using shiftRight_of_mem_block h⟩
  · refine .inl (read_writeBytes_other _ _ _ fun q hq hqp => h ?_)
    simp only [List.mem_map, List.mem_filter] at hq
    obtain ⟨⟨b, i⟩, ⟨hx, -⟩, rfl⟩ := hq
    rw [← hqp]
    have := (List.mem_zipIdx' hx).2
    exact this ▸ List.getElem_mem _

/-! ## Loads -/

theorem partialNone_frame (a : Access) (n : Nat) (s : State) : PartialFrame s a (partialNone n s) :=
  ⟨rfl, rfl, fun _ => .inl rfl, fun _ => .inl rfl, fun _ => .inl rfl, fun _ => .inl rfl, .inl rfl⟩

theorem partialFloat_frame (a : Access) (frd : FReg) (n : Nat) (s : State) (hs : a.store = false)
    (hc : a.cls = .fp) (ht : frd = (encode a.instr).extractLsb' 21 5) :
    PartialFrame s a (partialFloat frd n s) := by
  unfold partialFloat
  split
  · refine ⟨rfl, rfl, fun _ => .inl rfl, fun r => ?_, fun _ => .inl rfl, fun _ => .inl rfl, .inl rfl⟩
    by_cases h : r = frd
    · exact .inr ⟨hs, hc, h.trans ht⟩
    · exact .inl (State.readFpr_setFpr_other _ _ h)
  · exact partialNone_frame a n s

/-- The registers after part of a load of words: each of the range that `keep` selects holds its word. -/
theorem readGpr_loadWords_kept (s : State) (a : Access) (rd : Reg) (keep : Nat → Bool) {n : Nat}
    (hn : n ≤ 32) (r : Reg) : (loadWords s a rd keep n s).readGpr r = s.readGpr r ∨ ((r - rd).toNat < n ∧
      (loadWords s a rd keep n s).readGpr r = truncXlen s.cfg (registerWord s a (r - rd).toNat)) := by
  induction n with
  | zero => exact .inl rfl
  | succ n ih =>
    have hcfg : (loadWords s a rd keep n s).cfg = s.cfg := by rw [loadWords_eq]
    have ih := (ih (by omega)).imp_right fun h => (⟨by omega, h.2⟩ : (r - rd).toNat < n + 1 ∧ _)
    simp only [loadWords]
    split
    · by_cases h : r = rd + BitVec.ofNat 5 n
      · subst h
        have hk : (rd + BitVec.ofNat 5 n - rd).toNat = n := by
          rw [BitVec.add_comm, BitVec.add_sub_cancel]; simp; omega
        exact .inr ⟨by omega, by rw [State.readGpr_setGpr_same, hk, hcfg, State.wordAt_eq]⟩
      · rw [State.readGpr_setGpr_other _ _ h]; exact ih
    · exact ih

theorem partialWords_frame (a : Access) (rd : Reg) (n : Nat) (s : State) (hs : a.store = false)
    (hc : a.cls = .multiple ∨ a.cls = .string) (ht : rd = (encode a.instr).extractLsb' 21 5)
    (hn : a.words ≤ 32) : PartialFrame s a (partialWords a rd n s) := by
  have hf (keep) : loadWords s a rd keep a.words s =
      { s with gpr := (loadWords s a rd keep a.words s).gpr } := loadWords_eq s a rd keep a.words s
  unfold partialWords
  dsimp only
  generalize hk : (fun j => s.freeBit .partialReg j &&
    (List.range 4).all fun k => decide (a.len ≤ 4 * j + k) || s.accessible a (4 * j + k)) = keep
  refine ⟨by rw [hf], by rw [hf], fun r => ?_, fun r => ?_, fun p => ?_, fun k => ?_, ?_⟩
  · refine (readGpr_loadWords_kept s a rd keep hn r).imp_right fun h => ⟨hs, hc, ?_⟩
    rw [← ht]; exact h
  all_goals rw [hf]; exact .inl rfl

/-! ## External control -/

/-- Of a word of which the bytes that `sent` selects are sent, each bit. -/
theorem getMsbD_selectBytes (sent : BitVec 4) (w : BitVec 32) {k : Nat} (hk : k < 32) :
    (selectBytes sent w).getMsbD k = (sent.getMsbD (k / 8) && w.getMsbD k) := by
  have ones : ∀ m : Fin 8, (0xFF : BitVec 8).getMsbD m.val = true := by decide
  have lane (b : Bool) (m : Nat) :
      (if b then 0xFF else 0 : BitVec 8).getMsbD m = (decide (m < 8) && b) := by
    cases b
    · simp
    · by_cases h : m < 8
      · simpa [h] using ones ⟨m, h⟩
      · simp [h, BitVec.getMsbD_of_ge _ _ (by omega : 8 ≤ m)]
  simp only [selectBytes, BitVec.getMsbD_and, BitVec.getMsbD_append, lane]
  rw [Bool.and_comm]
  congr 1
  obtain h | h | h | h : k / 8 = 0 ∨ k / 8 = 1 ∨ k / 8 = 2 ∨ k / 8 = 3 := by omega
  all_goals
    rw [h]
    split_ifs <;> first | omega | (simp; try omega)

theorem partialSend_frame (a : Access) (n : Nat) (s : State) (hs : a.store = true)
    (hc : a.cls = .external) :
    PartialFrame s a (partialSend a (s.readGpr ((encode a.instr).extractLsb' 21 5)) n s) := by
  by_cases he : earE s.ear = true
  · unfold partialSend
    dsimp only
    split_ifs with _ h h
    all_goals first
      | exact partialNone_frame a n s
      | exact ⟨rfl, rfl, fun _ => .inl rfl, fun _ => .inl rfl, fun _ => .inl rfl, fun _ => .inl rfl,
          .inr ⟨hs, hc, he, { pa := _, word := _, sent := _ }, rfl, rfl, h,
            fun k hk => getMsbD_selectBytes _ _ hk⟩⟩
  · have : partialSend a (s.readGpr ((encode a.instr).extractLsb' 21 5)) n s = s := by
      simp [partialSend, he]
    rw [this]
    exact partialNone_frame a n s

/-! ## Boundedly-undefined results -/

/-- A store among those permitted lies where the program may write, in memory. -/
theorem mem_permittedStores {s : State} {l : List (Word × Byte)} {q : Word × Byte}
    (h : q ∈ s.permittedStores l) : memoryAt s.cfg q.1 = true ∧
      ∃ ea pa attrs, s.translate .store (s.maskEa ea) = .ok pa attrs ∧ q.1 = s.byteAddress pa := by
  simp only [State.permittedStores, List.mem_filterMap] at h
  obtain ⟨x, -, h⟩ := h
  split at h
  · split at h
    · cases h; exact ⟨by assumption, _, _, _, by assumption, rfl⟩
    · cases h
  · cases h

/-- What boundedly-undefined results change: these registers, and memory the program may write. -/
theorem boundedlyUndefined_frame (s : State) : ∃ gpr fpr cr xer reservation mem,
    boundedlyUndefined s = { s with gpr, fpr, cr, xer, reservation, mem } ∧
      (msrFP s.context = false → fpr = s.fpr) ∧
      ∀ p, Memory.read mem p = Memory.read s.mem p ∨ (memoryAt s.cfg p = true ∧
        ∃ ea pa attrs, s.translate .store (s.maskEa ea) = .ok pa attrs ∧ p = s.byteAddress pa) := by
  refine ⟨_, _, _, _, _, writeBytes s.mem (s.permittedStores (Config.freeStores s.draws)),
    by rw [boundedlyUndefined], fun h => by rw [h]; rfl, fun p => ?_⟩
  by_cases h : ∃ q ∈ s.permittedStores (Config.freeStores s.draws), q.1 = p
  · obtain ⟨q, hq, rfl⟩ := h
    exact .inr (mem_permittedStores hq)
  · exact .inl (read_writeBytes_other _ _ _ fun q hq hqp => h ⟨q, hq, hqp⟩)

/-! ## Every storage instruction -/

/-- A store conditional without the reservation, where a normal store would meet a DSI, that completes as a
failed one (61 R301, 93 U14). -/
def FailsInstead (s : State) (i : Instr) (a : Access) : Prop :=
  a.cls = .reserve ∧ a.store = true ∧ s.reservation = none ∧ s.alignChoice a = .correct ∧
    s.storeFaults a = true ∧ ∃ data, exec i s = .next (condStore a data s).finish

theorem storeConditional_cases {i : Instr} {s : State} {n : Nat} {v ea : Word}
    (hk : ∀ k, whenAdmitted i s k = k s) (he : exec i s = storeConditional i n v ea s) :
    let a := reserveAccess i true n ea
    FailsInstead s i a ∨ exec i s =
      perform a (partialCond a (s.dataBytes n v)) (condStore a (s.dataBytes n v)) s := by
  simp only [storeConditional, hk] at he
  split at he
  · rename_i h
    simp only [Bool.and_eq_true, Option.isNone_iff_eq_none, beq_iff_eq] at h
    exact .inl ⟨rfl, rfl, h.1.1.1, h.1.1.2, h.1.2, _, he⟩
  · exact .inr he

theorem words_string (i : Instr) (store : Bool) {n : Nat} (ea : Word) (h : n ≤ 128) :
    (stringAccess i store n ea).words ≤ 32 := by
  simp only [Access.words, stringAccess]; omega

theorem xerCount_le (x : BitVec 32) : xerCount x ≤ 128 := by
  unfold xerCount
  have := (x.extractLsb' 0 7).isLt
  omega

theorem immediateCount_le (nb : BitVec 5) : immediateCount nb ≤ 128 := by
  unfold immediateCount
  have := nb.isLt
  split <;> omega

/-- Every storage instruction that is admitted performs its access, with a partial execution that stays
within `Abandons`, or is a store conditional that fails instead. -/
theorem exec_performs {s : State} {i : Instr} {a : Access} (ha : accessOf s i = some a)
    (hadm : admitted s i = true) : FailsInstead s i a ∨ ∃ part body,
      (∀ n, PartialFrame s a (part n s)) ∧ exec i s = perform a part body s := by
  simp only [admitted, Bool.and_eq_true, Bool.not_eq_true', Bool.or_eq_true] at hadm
  obtain ⟨⟨⟨h1, h2⟩, h3⟩, h4⟩ := hadm
  have hk : i.validForm = true → ∀ k, whenAdmitted i s k = k s := fun hv k =>
    admit_pass h1 hv h3 (by rcases h4 with h | h <;> simp [h])
  cases i
  case stwcxDot rs ra rb =>
    cases ha
    exact (storeConditional_cases (hk h2) (exec_stwcxDot rs ra rb s)).imp_right fun h =>
      ⟨_, _, fun n => partialCond_frame _ _ (by simp [reserveAccess]) n s rfl rfl, h⟩
  case stdcxDot rs ra rb =>
    cases ha
    exact (storeConditional_cases (hk h2) (exec_stdcxDot rs ra rb s)).imp_right fun h =>
      ⟨_, _, fun n => partialCond_frame _ _ (by simp [reserveAccess]) n s rfl rfl, h⟩
  all_goals first | (cases ha; done) | right
  case lswx rd ra rb =>
    have h2' : stringFormValid rd ra rb (xerCount s.xer) = true := h2
    simp only [accessOf, nonzeroString] at ha
    split at ha
    · cases ha
    · cases ha
      rw [exec_lswx, if_pos h2', loadString, hk rfl, if_neg (by assumption)]
      exact ⟨_, _, fun n => partialWords_frame _ _ n s rfl (.inr rfl) (by simp [stringAccess, encode])
        (words_string _ _ _ (xerCount_le _)), rfl⟩
  case lswi =>
    simp only [accessOf, nonzeroString] at ha
    split at ha
    · cases ha
    · cases ha
      rw [exec_lswi, loadString, hk rfl, if_neg (by assumption)]
      exact ⟨_, _, fun n => partialWords_frame _ _ n s rfl (.inr rfl) (by simp [stringAccess, encode])
        (words_string _ _ _ (immediateCount_le _)), rfl⟩
  case stswx =>
    simp only [accessOf, nonzeroString] at ha
    split at ha
    · cases ha
    · cases ha
      rw [exec_stswx, storeString, hk rfl, if_neg (by assumption)]
      exact ⟨_, _, fun n => partialStore_frame _ _ (by simp) n s rfl (.inr (.inr (.inr rfl))), rfl⟩
  case stswi =>
    simp only [accessOf, nonzeroString] at ha
    split at ha
    · cases ha
    · cases ha
      rw [exec_stswi, storeString, hk rfl, if_neg (by assumption)]
      exact ⟨_, _, fun n => partialStore_frame _ _ (by simp) n s rfl (.inr (.inr (.inr rfl))), rfl⟩
  case lmw =>
    cases ha
    rw [exec_lmw, loadMultiple, hk h2]
    exact ⟨_, _, fun n => partialWords_frame _ _ n s rfl (.inl rfl) (by simp [multipleAccess, encode])
      (by simp only [Access.words, multipleAccess]; omega), rfl⟩
  case stmw =>
    cases ha
    rw [exec_stmw, storeMultiple, hk h2]
    exact ⟨_, _, fun n => partialStore_frame _ _ (by simp) n s rfl (.inr (.inr (.inl rfl))), rfl⟩
  case dcbz =>
    cases ha
    rw [exec_dcbz, zeroBlock, hk h2]
    exact ⟨_, _, fun n => partialBlock_frame _ n s rfl rfl, rfl⟩
  case ecowx =>
    cases ha
    rw [exec_ecowx, externalOut, hk h2]
    refine ⟨_, _, fun n => ?_, rfl⟩
    rename_i rs ra rb
    have ht : (encode (.ecowx rs ra rb)).extractLsb' 21 5 = rs := by simp [encode]
    have := partialSend_frame (externalAccess (.ecowx rs ra rb) true (s.eaX ra rb)) n s rfl rfl
    rwa [show (externalAccess (.ecowx rs ra rb) true (s.eaX ra rb)).instr = .ecowx rs ra rb from rfl,
      ht] at this
  all_goals
    cases ha
    simp only [exec_lwz, exec_lwzu, exec_stw, exec_stwu, exec_lhz, exec_lhzu, exec_lha, exec_lhau, exec_sth,
      exec_sthu, exec_lfs, exec_lfsu, exec_lfd, exec_lfdu, exec_stfs, exec_stfsu, exec_stfd,
      exec_stfdu, exec_ld, exec_ldu, exec_lwa, exec_std, exec_stdu, exec_lwarx, exec_ldarx, exec_ldx,
      exec_ldux, exec_stdx, exec_stdux, exec_lwax, exec_lwaux, exec_lwbrx, exec_stwbrx, exec_lhbrx,
      exec_sthbrx, exec_eciwx, exec_lwzx, exec_lwzux, exec_stwx, exec_stwux, exec_lhzx, exec_lhzux,
      exec_lhax, exec_lhaux, exec_sthx, exec_sthux, exec_lfsx, exec_lfsux, exec_lfdx, exec_lfdux,
      exec_stfsx, exec_stfsux, exec_stfdx, exec_stfdux, exec_stfiwx, exec_lbz, exec_lbzu, exec_stb,
      exec_stbu, exec_lbzx, exec_lbzux, exec_stbx, exec_stbux, exec_icbi, exec_dcbi, exec_dcbst,
      exec_dcbf, loadInt, storeInt, loadFloat, storeFloat, loadReserve, externalIn, cacheOp]
    rw [hk h2]
  all_goals first
    | exact ⟨_, _, fun n => partialNone_frame _ n s, rfl⟩
    | exact ⟨_, _, fun n => partialStore_frame _ _ (by simp [intAccess]) n s rfl (.inl rfl), rfl⟩
    | exact ⟨_, _, fun n => partialStore_frame _ _ (by simp [floatAccess]) n s rfl (.inr (.inl rfl)),
        rfl⟩
    | exact ⟨_, _, fun n => partialFloat_frame _ _ n s rfl rfl (by simp [floatAccess, encode]), rfl⟩

end Sys2Proof.Machine
end

