-- ==== Sys2Proof/Laws/PerInstr.lean ====
section
/-! SUPPORT. Statements made for every instruction, one lemma for each constructor. -/

namespace Sys2Proof.Laws

/-! ## The words of a format under the masks of the opcode table -/

theorem formD_and (op op' : BitVec 6) (rt rt' ra ra' : BitVec 5) (d d' : BitVec 16) :
    formD op rt ra d &&& formD op' rt' ra' d' =
      formD (op &&& op') (rt &&& rt') (ra &&& ra') (d &&& d') := by
  unfold formD
  rw [BitVec.and_append, BitVec.and_append, BitVec.and_append]

theorem formDS_and (op op' : BitVec 6) (rt rt' ra ra' : BitVec 5) (ds ds' : BitVec 14)
    (xo xo' : BitVec 2) :
    formDS op rt ra ds xo &&& formDS op' rt' ra' ds' xo' =
      formDS (op &&& op') (rt &&& rt') (ra &&& ra') (ds &&& ds') (xo &&& xo') := by
  unfold formDS
  rw [BitVec.and_append, BitVec.and_append, BitVec.and_append, BitVec.and_append]

theorem formX_and (op op' : BitVec 6) (rt rt' ra ra' rb rb' : BitVec 5) (xo xo' : BitVec 10)
    (rc rc' : BitVec 1) :
    formX op rt ra rb xo rc &&& formX op' rt' ra' rb' xo' rc' =
      formX (op &&& op') (rt &&& rt') (ra &&& ra') (rb &&& rb') (xo &&& xo') (rc &&& rc') := by
  unfold formX
  rw [BitVec.and_append, BitVec.and_append, BitVec.and_append, BitVec.and_append, BitVec.and_append]

theorem formD_masked (op : BitVec 6) (rt ra : BitVec 5) (d : BitVec 16) :
    formD op rt ra d &&& 0xFC000000 = formD op 0#5 0#5 0#16 := by
  rw [show (0xFC000000 : InstWord) = formD (BitVec.allOnes 6) 0#5 0#5 0#16 from by decide, formD_and]
  simp only [BitVec.and_zero, BitVec.and_allOnes]

theorem formDS_masked (op : BitVec 6) (rt ra : BitVec 5) (ds : BitVec 14) (xo : BitVec 2) :
    formDS op rt ra ds xo &&& 0xFC000003 = formDS op 0#5 0#5 0#14 xo := by
  rw [show (0xFC000003 : InstWord) = formDS (BitVec.allOnes 6) 0#5 0#5 0#14 (BitVec.allOnes 2) from by decide, formDS_and]
  simp only [BitVec.and_zero, BitVec.and_allOnes]

theorem formX_masked (op : BitVec 6) (rt ra rb : BitVec 5) (xo : BitVec 10) (rc : BitVec 1) :
    formX op rt ra rb xo rc &&& 0xFC0007FF = formX op 0#5 0#5 0#5 xo rc := by
  rw [show (0xFC0007FF : InstWord) = formX (BitVec.allOnes 6) 0#5 0#5 0#5 (BitVec.allOnes 10) (BitVec.allOnes 1) from by decide, formX_and]
  simp only [BitVec.and_zero, BitVec.and_allOnes]

theorem formX_masked_register (op : BitVec 6) (rt : BitVec 5) (xo : BitVec 10) :
    formX op rt 0#5 0#5 xo 0#1 &&& 0xFC1FFFFF = formX op 0#5 0#5 0#5 xo 0#1 := by
  rw [show (0xFC1FFFFF : InstWord) = formX (BitVec.allOnes 6) 0#5 (BitVec.allOnes 5) (BitVec.allOnes 5) (BitVec.allOnes 10)
      (BitVec.allOnes 1) from by decide, formX_and]
  simp only [BitVec.and_zero, BitVec.and_allOnes]

theorem formX_masked_cache (op : BitVec 6) (ra rb : BitVec 5) (xo : BitVec 10) :
    formX op 0#5 ra rb xo 0#1 &&& 0xFFE007FF = formX op 0#5 0#5 0#5 xo 0#1 := by
  rw [show (0xFFE007FF : InstWord) = formX (BitVec.allOnes 6) (BitVec.allOnes 5) 0#5 0#5 (BitVec.allOnes 10)
      (BitVec.allOnes 1) from by decide, formX_and]
  simp only [BitVec.and_zero, BitVec.and_allOnes]

/-! ## Every encoding has its opcode-table row -/

/-- The mask and the match of an instruction's row of the opcode table (30_encoding.md R96, R98). -/
def tableRow : Instr → InstWord × InstWord
  | .tdi _ _ _ => (0xFC000000, 0x08000000)
  | .twi _ _ _ => (0xFC000000, 0x0C000000)
  | .sc => (0xFFFFFFFF, 0x44000002)
  | .rfid => (0xFFFFFFFF, 0x4C000024)
  | .rfi => (0xFFFFFFFF, 0x4C000064)
  | .isync => (0xFFFFFFFF, 0x4C00012C)
  | .tw _ _ _ => (0xFC0007FF, 0x7C000008)
  | .td _ _ _ => (0xFC0007FF, 0x7C000088)
  | .mfmsr _ => (0xFC1FFFFF, 0x7C0000A6)
  | .mtmsr _ => (0xFC1FFFFF, 0x7C000124)
  | .mtmsrd _ => (0xFC1FFFFF, 0x7C000164)
  | .mfspr _ _ => (0xFC0007FF, 0x7C0002A6)
  | .mtspr _ _ => (0xFC0007FF, 0x7C0003A6)
  | .sync => (0xFFFFFFFF, 0x7C0004AC)
  | .lwz _ _ _ => (0xFC000000, 0x80000000)
  | .lwzu _ _ _ => (0xFC000000, 0x84000000)
  | .stw _ _ _ => (0xFC000000, 0x90000000)
  | .stwu _ _ _ => (0xFC000000, 0x94000000)
  | .lhz _ _ _ => (0xFC000000, 0xA0000000)
  | .lhzu _ _ _ => (0xFC000000, 0xA4000000)
  | .lha _ _ _ => (0xFC000000, 0xA8000000)
  | .lhau _ _ _ => (0xFC000000, 0xAC000000)
  | .sth _ _ _ => (0xFC000000, 0xB0000000)
  | .sthu _ _ _ => (0xFC000000, 0xB4000000)
  | .lmw _ _ _ => (0xFC000000, 0xB8000000)
  | .stmw _ _ _ => (0xFC000000, 0xBC000000)
  | .lfs _ _ _ => (0xFC000000, 0xC0000000)
  | .lfsu _ _ _ => (0xFC000000, 0xC4000000)
  | .lfd _ _ _ => (0xFC000000, 0xC8000000)
  | .lfdu _ _ _ => (0xFC000000, 0xCC000000)
  | .stfs _ _ _ => (0xFC000000, 0xD0000000)
  | .stfsu _ _ _ => (0xFC000000, 0xD4000000)
  | .stfd _ _ _ => (0xFC000000, 0xD8000000)
  | .stfdu _ _ _ => (0xFC000000, 0xDC000000)
  | .ld _ _ _ => (0xFC000003, 0xE8000000)
  | .ldu _ _ _ => (0xFC000003, 0xE8000001)
  | .lwa _ _ _ => (0xFC000003, 0xE8000002)
  | .std _ _ _ => (0xFC000003, 0xF8000000)
  | .stdu _ _ _ => (0xFC000003, 0xF8000001)
  | .lwarx _ _ _ => (0xFC0007FF, 0x7C000028)
  | .ldarx _ _ _ => (0xFC0007FF, 0x7C0000A8)
  | .ldx _ _ _ => (0xFC0007FF, 0x7C00002A)
  | .ldux _ _ _ => (0xFC0007FF, 0x7C00006A)
  | .stdx _ _ _ => (0xFC0007FF, 0x7C00012A)
  | .stdux _ _ _ => (0xFC0007FF, 0x7C00016A)
  | .lwax _ _ _ => (0xFC0007FF, 0x7C0002AA)
  | .lwaux _ _ _ => (0xFC0007FF, 0x7C0002EA)
  | .lswx _ _ _ => (0xFC0007FF, 0x7C00042A)
  | .lswi _ _ _ => (0xFC0007FF, 0x7C0004AA)
  | .stswx _ _ _ => (0xFC0007FF, 0x7C00052A)
  | .stswi _ _ _ => (0xFC0007FF, 0x7C0005AA)
  | .stwcxDot _ _ _ => (0xFC0007FF, 0x7C00012D)
  | .stdcxDot _ _ _ => (0xFC0007FF, 0x7C0001AD)
  | .lwbrx _ _ _ => (0xFC0007FF, 0x7C00042C)
  | .stwbrx _ _ _ => (0xFC0007FF, 0x7C00052C)
  | .lhbrx _ _ _ => (0xFC0007FF, 0x7C00062C)
  | .sthbrx _ _ _ => (0xFC0007FF, 0x7C00072C)
  | .eciwx _ _ _ => (0xFC0007FF, 0x7C00026C)
  | .ecowx _ _ _ => (0xFC0007FF, 0x7C00036C)
  | .dcbz _ _ => (0xFFE007FF, 0x7C0007EC)
  | .lwzx _ _ _ => (0xFC0007FF, 0x7C00002E)
  | .lwzux _ _ _ => (0xFC0007FF, 0x7C00006E)
  | .stwx _ _ _ => (0xFC0007FF, 0x7C00012E)
  | .stwux _ _ _ => (0xFC0007FF, 0x7C00016E)
  | .lhzx _ _ _ => (0xFC0007FF, 0x7C00022E)
  | .lhzux _ _ _ => (0xFC0007FF, 0x7C00026E)
  | .lhax _ _ _ => (0xFC0007FF, 0x7C0002AE)
  | .lhaux _ _ _ => (0xFC0007FF, 0x7C0002EE)
  | .sthx _ _ _ => (0xFC0007FF, 0x7C00032E)
  | .sthux _ _ _ => (0xFC0007FF, 0x7C00036E)
  | .lfsx _ _ _ => (0xFC0007FF, 0x7C00042E)
  | .lfsux _ _ _ => (0xFC0007FF, 0x7C00046E)
  | .lfdx _ _ _ => (0xFC0007FF, 0x7C0004AE)
  | .lfdux _ _ _ => (0xFC0007FF, 0x7C0004EE)
  | .stfsx _ _ _ => (0xFC0007FF, 0x7C00052E)
  | .stfsux _ _ _ => (0xFC0007FF, 0x7C00056E)
  | .stfdx _ _ _ => (0xFC0007FF, 0x7C0005AE)
  | .stfdux _ _ _ => (0xFC0007FF, 0x7C0005EE)
  | .stfiwx _ _ _ => (0xFC0007FF, 0x7C0007AE)
  | .lbz _ _ _ => (0xFC000000, 0x88000000)
  | .lbzu _ _ _ => (0xFC000000, 0x8C000000)
  | .stb _ _ _ => (0xFC000000, 0x98000000)
  | .stbu _ _ _ => (0xFC000000, 0x9C000000)
  | .lbzx _ _ _ => (0xFC0007FF, 0x7C0000AE)
  | .lbzux _ _ _ => (0xFC0007FF, 0x7C0000EE)
  | .stbx _ _ _ => (0xFC0007FF, 0x7C0001AE)
  | .stbux _ _ _ => (0xFC0007FF, 0x7C0001EE)
  | .icbi _ _ => (0xFFE007FF, 0x7C0007AC)
  | .dcbi _ _ => (0xFFE007FF, 0x7C0003AC)
  | .dcbst _ _ => (0xFFE007FF, 0x7C00006C)
  | .dcbf _ _ => (0xFFE007FF, 0x7C0000AC)

/-- The word of the instruction has the fixed bits its row of the opcode table gives. -/
def Encoded.Statement (i : Instr) : Prop := encode i &&& (tableRow i).1 = (tableRow i).2

theorem Encoded.tdi (cond : TrapTo) (ra : Reg) (simm : BitVec 16) :
    Encoded.Statement (.tdi cond ra simm) :=
  (formD_masked _ _ _ _).trans rfl
theorem Encoded.twi (cond : TrapTo) (ra : Reg) (simm : BitVec 16) :
    Encoded.Statement (.twi cond ra simm) :=
  (formD_masked _ _ _ _).trans rfl
theorem Encoded.sc : Encoded.Statement (.sc) :=
  by unfold Encoded.Statement; decide
theorem Encoded.rfid : Encoded.Statement (.rfid) :=
  by unfold Encoded.Statement; decide
theorem Encoded.rfi : Encoded.Statement (.rfi) :=
  by unfold Encoded.Statement; decide
theorem Encoded.isync : Encoded.Statement (.isync) :=
  by unfold Encoded.Statement; decide
theorem Encoded.tw (cond : TrapTo) (ra : Reg) (rb : Reg) : Encoded.Statement (.tw cond ra rb) :=
  (formX_masked _ _ _ _ _ _).trans rfl
theorem Encoded.td (cond : TrapTo) (ra : Reg) (rb : Reg) : Encoded.Statement (.td cond ra rb) :=
  (formX_masked _ _ _ _ _ _).trans rfl
theorem Encoded.mfmsr (rd : Reg) : Encoded.Statement (.mfmsr rd) :=
  (formX_masked_register _ _ _).trans rfl
theorem Encoded.mtmsr (rs : Reg) : Encoded.Statement (.mtmsr rs) :=
  (formX_masked_register _ _ _).trans rfl
theorem Encoded.mtmsrd (rs : Reg) : Encoded.Statement (.mtmsrd rs) :=
  (formX_masked_register _ _ _).trans rfl
theorem Encoded.mfspr (rd : Reg) (spr : SprNum) : Encoded.Statement (.mfspr rd spr) :=
  (formX_masked _ _ _ _ _ _).trans rfl
theorem Encoded.mtspr (spr : SprNum) (rs : Reg) : Encoded.Statement (.mtspr spr rs) :=
  (formX_masked _ _ _ _ _ _).trans rfl
theorem Encoded.sync : Encoded.Statement (.sync) :=
  by unfold Encoded.Statement; decide
theorem Encoded.lwz (rd : Reg) (ra : Reg) (d : BitVec 16) : Encoded.Statement (.lwz rd ra d) :=
  (formD_masked _ _ _ _).trans rfl
theorem Encoded.lwzu (rd : Reg) (ra : Reg) (d : BitVec 16) : Encoded.Statement (.lwzu rd ra d) :=
  (formD_masked _ _ _ _).trans rfl
theorem Encoded.stw (rs : Reg) (ra : Reg) (d : BitVec 16) : Encoded.Statement (.stw rs ra d) :=
  (formD_masked _ _ _ _).trans rfl
theorem Encoded.stwu (rs : Reg) (ra : Reg) (d : BitVec 16) : Encoded.Statement (.stwu rs ra d) :=
  (formD_masked _ _ _ _).trans rfl
theorem Encoded.lhz (rd : Reg) (ra : Reg) (d : BitVec 16) : Encoded.Statement (.lhz rd ra d) :=
  (formD_masked _ _ _ _).trans rfl
theorem Encoded.lhzu (rd : Reg) (ra : Reg) (d : BitVec 16) : Encoded.Statement (.lhzu rd ra d) :=
  (formD_masked _ _ _ _).trans rfl
theorem Encoded.lha (rd : Reg) (ra : Reg) (d : BitVec 16) : Encoded.Statement (.lha rd ra d) :=
  (formD_masked _ _ _ _).trans rfl
theorem Encoded.lhau (rd : Reg) (ra : Reg) (d : BitVec 16) : Encoded.Statement (.lhau rd ra d) :=
  (formD_masked _ _ _ _).trans rfl
theorem Encoded.sth (rs : Reg) (ra : Reg) (d : BitVec 16) : Encoded.Statement (.sth rs ra d) :=
  (formD_masked _ _ _ _).trans rfl
theorem Encoded.sthu (rs : Reg) (ra : Reg) (d : BitVec 16) : Encoded.Statement (.sthu rs ra d) :=
  (formD_masked _ _ _ _).trans rfl
theorem Encoded.lmw (rd : Reg) (ra : Reg) (d : BitVec 16) : Encoded.Statement (.lmw rd ra d) :=
  (formD_masked _ _ _ _).trans rfl
theorem Encoded.stmw (rs : Reg) (ra : Reg) (d : BitVec 16) : Encoded.Statement (.stmw rs ra d) :=
  (formD_masked _ _ _ _).trans rfl
theorem Encoded.lfs (frd : FReg) (ra : Reg) (d : BitVec 16) : Encoded.Statement (.lfs frd ra d) :=
  (formD_masked _ _ _ _).trans rfl
theorem Encoded.lfsu (frd : FReg) (ra : Reg) (d : BitVec 16) : Encoded.Statement (.lfsu frd ra d) :=
  (formD_masked _ _ _ _).trans rfl
theorem Encoded.lfd (frd : FReg) (ra : Reg) (d : BitVec 16) : Encoded.Statement (.lfd frd ra d) :=
  (formD_masked _ _ _ _).trans rfl
theorem Encoded.lfdu (frd : FReg) (ra : Reg) (d : BitVec 16) : Encoded.Statement (.lfdu frd ra d) :=
  (formD_masked _ _ _ _).trans rfl
theorem Encoded.stfs (frs : FReg) (ra : Reg) (d : BitVec 16) : Encoded.Statement (.stfs frs ra d) :=
  (formD_masked _ _ _ _).trans rfl
theorem Encoded.stfsu (frs : FReg) (ra : Reg) (d : BitVec 16) :
    Encoded.Statement (.stfsu frs ra d) :=
  (formD_masked _ _ _ _).trans rfl
theorem Encoded.stfd (frs : FReg) (ra : Reg) (d : BitVec 16) : Encoded.Statement (.stfd frs ra d) :=
  (formD_masked _ _ _ _).trans rfl
theorem Encoded.stfdu (frs : FReg) (ra : Reg) (d : BitVec 16) :
    Encoded.Statement (.stfdu frs ra d) :=
  (formD_masked _ _ _ _).trans rfl
theorem Encoded.ld (rd : Reg) (ra : Reg) (ds : BitVec 14) : Encoded.Statement (.ld rd ra ds) :=
  (formDS_masked _ _ _ _ _).trans rfl
theorem Encoded.ldu (rd : Reg) (ra : Reg) (ds : BitVec 14) : Encoded.Statement (.ldu rd ra ds) :=
  (formDS_masked _ _ _ _ _).trans rfl
theorem Encoded.lwa (rd : Reg) (ra : Reg) (ds : BitVec 14) : Encoded.Statement (.lwa rd ra ds) :=
  (formDS_masked _ _ _ _ _).trans rfl
theorem Encoded.std (rs : Reg) (ra : Reg) (ds : BitVec 14) : Encoded.Statement (.std rs ra ds) :=
  (formDS_masked _ _ _ _ _).trans rfl
theorem Encoded.stdu (rs : Reg) (ra : Reg) (ds : BitVec 14) : Encoded.Statement (.stdu rs ra ds) :=
  (formDS_masked _ _ _ _ _).trans rfl
theorem Encoded.lwarx (rd : Reg) (ra : Reg) (rb : Reg) : Encoded.Statement (.lwarx rd ra rb) :=
  (formX_masked _ _ _ _ _ _).trans rfl
theorem Encoded.ldarx (rd : Reg) (ra : Reg) (rb : Reg) : Encoded.Statement (.ldarx rd ra rb) :=
  (formX_masked _ _ _ _ _ _).trans rfl
theorem Encoded.ldx (rd : Reg) (ra : Reg) (rb : Reg) : Encoded.Statement (.ldx rd ra rb) :=
  (formX_masked _ _ _ _ _ _).trans rfl
theorem Encoded.ldux (rd : Reg) (ra : Reg) (rb : Reg) : Encoded.Statement (.ldux rd ra rb) :=
  (formX_masked _ _ _ _ _ _).trans rfl
theorem Encoded.stdx (rs : Reg) (ra : Reg) (rb : Reg) : Encoded.Statement (.stdx rs ra rb) :=
  (formX_masked _ _ _ _ _ _).trans rfl
theorem Encoded.stdux (rs : Reg) (ra : Reg) (rb : Reg) : Encoded.Statement (.stdux rs ra rb) :=
  (formX_masked _ _ _ _ _ _).trans rfl
theorem Encoded.lwax (rd : Reg) (ra : Reg) (rb : Reg) : Encoded.Statement (.lwax rd ra rb) :=
  (formX_masked _ _ _ _ _ _).trans rfl
theorem Encoded.lwaux (rd : Reg) (ra : Reg) (rb : Reg) : Encoded.Statement (.lwaux rd ra rb) :=
  (formX_masked _ _ _ _ _ _).trans rfl
theorem Encoded.lswx (rd : Reg) (ra : Reg) (rb : Reg) : Encoded.Statement (.lswx rd ra rb) :=
  (formX_masked _ _ _ _ _ _).trans rfl
theorem Encoded.lswi (rd : Reg) (ra : Reg) (nb : BitVec 5) : Encoded.Statement (.lswi rd ra nb) :=
  (formX_masked _ _ _ _ _ _).trans rfl
theorem Encoded.stswx (rs : Reg) (ra : Reg) (rb : Reg) : Encoded.Statement (.stswx rs ra rb) :=
  (formX_masked _ _ _ _ _ _).trans rfl
theorem Encoded.stswi (rs : Reg) (ra : Reg) (nb : BitVec 5) : Encoded.Statement (.stswi rs ra nb) :=
  (formX_masked _ _ _ _ _ _).trans rfl
theorem Encoded.stwcxDot (rs : Reg) (ra : Reg) (rb : Reg) :
    Encoded.Statement (.stwcxDot rs ra rb) :=
  (formX_masked _ _ _ _ _ _).trans rfl
theorem Encoded.stdcxDot (rs : Reg) (ra : Reg) (rb : Reg) :
    Encoded.Statement (.stdcxDot rs ra rb) :=
  (formX_masked _ _ _ _ _ _).trans rfl
theorem Encoded.lwbrx (rd : Reg) (ra : Reg) (rb : Reg) : Encoded.Statement (.lwbrx rd ra rb) :=
  (formX_masked _ _ _ _ _ _).trans rfl
theorem Encoded.stwbrx (rs : Reg) (ra : Reg) (rb : Reg) : Encoded.Statement (.stwbrx rs ra rb) :=
  (formX_masked _ _ _ _ _ _).trans rfl
theorem Encoded.lhbrx (rd : Reg) (ra : Reg) (rb : Reg) : Encoded.Statement (.lhbrx rd ra rb) :=
  (formX_masked _ _ _ _ _ _).trans rfl
theorem Encoded.sthbrx (rs : Reg) (ra : Reg) (rb : Reg) : Encoded.Statement (.sthbrx rs ra rb) :=
  (formX_masked _ _ _ _ _ _).trans rfl
theorem Encoded.eciwx (rd : Reg) (ra : Reg) (rb : Reg) : Encoded.Statement (.eciwx rd ra rb) :=
  (formX_masked _ _ _ _ _ _).trans rfl
theorem Encoded.ecowx (rs : Reg) (ra : Reg) (rb : Reg) : Encoded.Statement (.ecowx rs ra rb) :=
  (formX_masked _ _ _ _ _ _).trans rfl
theorem Encoded.dcbz (ra : Reg) (rb : Reg) : Encoded.Statement (.dcbz ra rb) :=
  (formX_masked_cache _ _ _ _).trans rfl
theorem Encoded.lwzx (rd : Reg) (ra : Reg) (rb : Reg) : Encoded.Statement (.lwzx rd ra rb) :=
  (formX_masked _ _ _ _ _ _).trans rfl
theorem Encoded.lwzux (rd : Reg) (ra : Reg) (rb : Reg) : Encoded.Statement (.lwzux rd ra rb) :=
  (formX_masked _ _ _ _ _ _).trans rfl
theorem Encoded.stwx (rs : Reg) (ra : Reg) (rb : Reg) : Encoded.Statement (.stwx rs ra rb) :=
  (formX_masked _ _ _ _ _ _).trans rfl
theorem Encoded.stwux (rs : Reg) (ra : Reg) (rb : Reg) : Encoded.Statement (.stwux rs ra rb) :=
  (formX_masked _ _ _ _ _ _).trans rfl
theorem Encoded.lhzx (rd : Reg) (ra : Reg) (rb : Reg) : Encoded.Statement (.lhzx rd ra rb) :=
  (formX_masked _ _ _ _ _ _).trans rfl
theorem Encoded.lhzux (rd : Reg) (ra : Reg) (rb : Reg) : Encoded.Statement (.lhzux rd ra rb) :=
  (formX_masked _ _ _ _ _ _).trans rfl
theorem Encoded.lhax (rd : Reg) (ra : Reg) (rb : Reg) : Encoded.Statement (.lhax rd ra rb) :=
  (formX_masked _ _ _ _ _ _).trans rfl
theorem Encoded.lhaux (rd : Reg) (ra : Reg) (rb : Reg) : Encoded.Statement (.lhaux rd ra rb) :=
  (formX_masked _ _ _ _ _ _).trans rfl
theorem Encoded.sthx (rs : Reg) (ra : Reg) (rb : Reg) : Encoded.Statement (.sthx rs ra rb) :=
  (formX_masked _ _ _ _ _ _).trans rfl
theorem Encoded.sthux (rs : Reg) (ra : Reg) (rb : Reg) : Encoded.Statement (.sthux rs ra rb) :=
  (formX_masked _ _ _ _ _ _).trans rfl
theorem Encoded.lfsx (frd : FReg) (ra : Reg) (rb : Reg) : Encoded.Statement (.lfsx frd ra rb) :=
  (formX_masked _ _ _ _ _ _).trans rfl
theorem Encoded.lfsux (frd : FReg) (ra : Reg) (rb : Reg) : Encoded.Statement (.lfsux frd ra rb) :=
  (formX_masked _ _ _ _ _ _).trans rfl
theorem Encoded.lfdx (frd : FReg) (ra : Reg) (rb : Reg) : Encoded.Statement (.lfdx frd ra rb) :=
  (formX_masked _ _ _ _ _ _).trans rfl
theorem Encoded.lfdux (frd : FReg) (ra : Reg) (rb : Reg) : Encoded.Statement (.lfdux frd ra rb) :=
  (formX_masked _ _ _ _ _ _).trans rfl
theorem Encoded.stfsx (frs : FReg) (ra : Reg) (rb : Reg) : Encoded.Statement (.stfsx frs ra rb) :=
  (formX_masked _ _ _ _ _ _).trans rfl
theorem Encoded.stfsux (frs : FReg) (ra : Reg) (rb : Reg) : Encoded.Statement (.stfsux frs ra rb) :=
  (formX_masked _ _ _ _ _ _).trans rfl
theorem Encoded.stfdx (frs : FReg) (ra : Reg) (rb : Reg) : Encoded.Statement (.stfdx frs ra rb) :=
  (formX_masked _ _ _ _ _ _).trans rfl
theorem Encoded.stfdux (frs : FReg) (ra : Reg) (rb : Reg) : Encoded.Statement (.stfdux frs ra rb) :=
  (formX_masked _ _ _ _ _ _).trans rfl
theorem Encoded.stfiwx (frs : FReg) (ra : Reg) (rb : Reg) : Encoded.Statement (.stfiwx frs ra rb) :=
  (formX_masked _ _ _ _ _ _).trans rfl
theorem Encoded.lbz (rd : Reg) (ra : Reg) (d : BitVec 16) : Encoded.Statement (.lbz rd ra d) :=
  (formD_masked _ _ _ _).trans rfl
theorem Encoded.lbzu (rd : Reg) (ra : Reg) (d : BitVec 16) : Encoded.Statement (.lbzu rd ra d) :=
  (formD_masked _ _ _ _).trans rfl
theorem Encoded.stb (rs : Reg) (ra : Reg) (d : BitVec 16) : Encoded.Statement (.stb rs ra d) :=
  (formD_masked _ _ _ _).trans rfl
theorem Encoded.stbu (rs : Reg) (ra : Reg) (d : BitVec 16) : Encoded.Statement (.stbu rs ra d) :=
  (formD_masked _ _ _ _).trans rfl
theorem Encoded.lbzx (rd : Reg) (ra : Reg) (rb : Reg) : Encoded.Statement (.lbzx rd ra rb) :=
  (formX_masked _ _ _ _ _ _).trans rfl
theorem Encoded.lbzux (rd : Reg) (ra : Reg) (rb : Reg) : Encoded.Statement (.lbzux rd ra rb) :=
  (formX_masked _ _ _ _ _ _).trans rfl
theorem Encoded.stbx (rs : Reg) (ra : Reg) (rb : Reg) : Encoded.Statement (.stbx rs ra rb) :=
  (formX_masked _ _ _ _ _ _).trans rfl
theorem Encoded.stbux (rs : Reg) (ra : Reg) (rb : Reg) : Encoded.Statement (.stbux rs ra rb) :=
  (formX_masked _ _ _ _ _ _).trans rfl
theorem Encoded.icbi (ra : Reg) (rb : Reg) : Encoded.Statement (.icbi ra rb) :=
  (formX_masked_cache _ _ _ _).trans rfl
theorem Encoded.dcbi (ra : Reg) (rb : Reg) : Encoded.Statement (.dcbi ra rb) :=
  (formX_masked_cache _ _ _ _).trans rfl
theorem Encoded.dcbst (ra : Reg) (rb : Reg) : Encoded.Statement (.dcbst ra rb) :=
  (formX_masked_cache _ _ _ _).trans rfl
theorem Encoded.dcbf (ra : Reg) (rb : Reg) : Encoded.Statement (.dcbf ra rb) :=
  (formX_masked_cache _ _ _ _).trans rfl

end Sys2Proof.Laws
end

