-- ==== Sys2Proof/Tests/Slice0.lean ====
section
/-! SUPPORT. The model's own tests: words written out in the spec, ill-formed instructions refused, vectors
of 95_test_vectors.md run for one step, and for every statement with hypotheses a state that meets them. -/

set_option maxRecDepth 8000

namespace Sys2Proof.Tests

open Sys2Proof Sys2Proof.Machine

/-! ## Decoding -/

/-- The words the spec lists (95_test_vectors.md V10 to V1O; the rules of 41 and 42). -/
theorem test_decode_system :
    decodeWord 0x44000002 = .ok (.sc) ∧
    decodeWord 0x4C000064 = .ok (.rfi) ∧
    decodeWord 0x4C000024 = .ok (.rfid) ∧
    decodeWord 0x4C00012C = .ok (.isync) ∧
    decodeWord 0x7C0004AC = .ok (.sync) ∧
    decodeWord 0x7C6000A6 = .ok (.mfmsr 3) ∧
    decodeWord 0x7C600124 = .ok (.mtmsr 3) ∧
    decodeWord 0x7C600164 = .ok (.mtmsrd 3) ∧
    decodeWord 0x7C7A03A6 = .ok (.mtspr 26 3) ∧
    decodeWord 0x7D7B03A6 = .ok (.mtspr 27 11) ∧
    decodeWord 0x7C9202A6 = .ok (.mfspr 4 18) ∧
    decodeWord 0x7D7302A6 = .ok (.mfspr 11 19) ∧
    decodeWord 0x7C7603A6 = .ok (.mtspr 22 3) ∧
    decodeWord 0x7C75FBA6 = .ok (.mtspr 1013 3) ∧
    decodeWord 0x7C7A42A6 = .ok (.mfspr 3 282) ∧
    decodeWord 0x0D030000 = .ok (.twi 8 3 0) ∧
    decodeWord 0x0FE00000 = .ok (.twi 31 0 0) ∧
    decodeWord 0x7C832008 = .ok (.tw 4 3 4) ∧
    decodeWord 0x0883FFFF = .ok (.tdi 4 3 (-1)) ∧
    decodeWord 0x7E032088 = .ok (.td 16 3 4) := by
  decide

/-- The words the spec lists (95_test_vectors.md V10 to V1O; the rules of 41 and 42). -/
theorem test_decode_immediate :
    decodeWord 0x80640008 = .ok (.lwz 3 4 8) ∧
    decodeWord 0x84640008 = .ok (.lwzu 3 4 8) ∧
    decodeWord 0x90640008 = .ok (.stw 3 4 8) ∧
    decodeWord 0x94640008 = .ok (.stwu 3 4 8) ∧
    decodeWord 0xA0640008 = .ok (.lhz 3 4 8) ∧
    decodeWord 0xA4640008 = .ok (.lhzu 3 4 8) ∧
    decodeWord 0xA8640008 = .ok (.lha 3 4 8) ∧
    decodeWord 0xAC640008 = .ok (.lhau 3 4 8) ∧
    decodeWord 0xB0640008 = .ok (.sth 3 4 8) ∧
    decodeWord 0xB4640008 = .ok (.sthu 3 4 8) ∧
    decodeWord 0xB8640008 = .ok (.lmw 3 4 8) ∧
    decodeWord 0xBC640008 = .ok (.stmw 3 4 8) := by
  decide

/-- The words the spec lists (95_test_vectors.md V10 to V1O; the rules of 41 and 42). -/
theorem test_decode_float_immediate :
    decodeWord 0xC0640008 = .ok (.lfs 3 4 8) ∧
    decodeWord 0xC4640008 = .ok (.lfsu 3 4 8) ∧
    decodeWord 0xC8640008 = .ok (.lfd 3 4 8) ∧
    decodeWord 0xCC640008 = .ok (.lfdu 3 4 8) ∧
    decodeWord 0xD0640008 = .ok (.stfs 3 4 8) ∧
    decodeWord 0xD4640008 = .ok (.stfsu 3 4 8) ∧
    decodeWord 0xD8640008 = .ok (.stfd 3 4 8) ∧
    decodeWord 0xDC640008 = .ok (.stfdu 3 4 8) := by
  decide

/-- The words the spec lists (95_test_vectors.md V10 to V1O; the rules of 41 and 42). -/
theorem test_decode_double_word :
    decodeWord 0xE8640008 = .ok (.ld 3 4 2) ∧
    decodeWord 0xE8640009 = .ok (.ldu 3 4 2) ∧
    decodeWord 0xE864000A = .ok (.lwa 3 4 2) ∧
    decodeWord 0xF8640008 = .ok (.std 3 4 2) ∧
    decodeWord 0xF8640009 = .ok (.stdu 3 4 2) := by
  decide

/-- The words the spec lists (95_test_vectors.md V10 to V1O; the rules of 41 and 42). -/
theorem test_decode_reservation_string :
    decodeWord 0x7C642828 = .ok (.lwarx 3 4 5) ∧
    decodeWord 0x7C6428A8 = .ok (.ldarx 3 4 5) ∧
    decodeWord 0x7C64282A = .ok (.ldx 3 4 5) ∧
    decodeWord 0x7C64286A = .ok (.ldux 3 4 5) ∧
    decodeWord 0x7C64292A = .ok (.stdx 3 4 5) ∧
    decodeWord 0x7C64296A = .ok (.stdux 3 4 5) ∧
    decodeWord 0x7C642AAA = .ok (.lwax 3 4 5) ∧
    decodeWord 0x7C642AEA = .ok (.lwaux 3 4 5) ∧
    decodeWord 0x7C642C2A = .ok (.lswx 3 4 5) ∧
    decodeWord 0x7C6444AA = .ok (.lswi 3 4 8) ∧
    decodeWord 0x7C642D2A = .ok (.stswx 3 4 5) ∧
    decodeWord 0x7C6445AA = .ok (.stswi 3 4 8) ∧
    decodeWord 0x7C64292D = .ok (.stwcxDot 3 4 5) ∧
    decodeWord 0x7C6429AD = .ok (.stdcxDot 3 4 5) := by
  decide

/-- The words the spec lists (95_test_vectors.md V10 to V1O; the rules of 41 and 42). -/
theorem test_decode_reverse_external :
    decodeWord 0x7C642C2C = .ok (.lwbrx 3 4 5) ∧
    decodeWord 0x7C642D2C = .ok (.stwbrx 3 4 5) ∧
    decodeWord 0x7C642E2C = .ok (.lhbrx 3 4 5) ∧
    decodeWord 0x7C642F2C = .ok (.sthbrx 3 4 5) ∧
    decodeWord 0x7C642A6C = .ok (.eciwx 3 4 5) ∧
    decodeWord 0x7C642B6C = .ok (.ecowx 3 4 5) ∧
    decodeWord 0x7C042FEC = .ok (.dcbz 4 5) := by
  decide

/-- The words the spec lists (95_test_vectors.md V10 to V1O; the rules of 41 and 42). -/
theorem test_decode_integer_indexed :
    decodeWord 0x7C64282E = .ok (.lwzx 3 4 5) ∧
    decodeWord 0x7C64286E = .ok (.lwzux 3 4 5) ∧
    decodeWord 0x7C64292E = .ok (.stwx 3 4 5) ∧
    decodeWord 0x7C64296E = .ok (.stwux 3 4 5) ∧
    decodeWord 0x7C642A2E = .ok (.lhzx 3 4 5) ∧
    decodeWord 0x7C642A6E = .ok (.lhzux 3 4 5) ∧
    decodeWord 0x7C642AAE = .ok (.lhax 3 4 5) ∧
    decodeWord 0x7C642AEE = .ok (.lhaux 3 4 5) ∧
    decodeWord 0x7C642B2E = .ok (.sthx 3 4 5) ∧
    decodeWord 0x7C642B6E = .ok (.sthux 3 4 5) := by
  decide

/-- The words the spec lists (95_test_vectors.md V10 to V1O; the rules of 41 and 42). -/
theorem test_decode_float_indexed :
    decodeWord 0x7C642C2E = .ok (.lfsx 3 4 5) ∧
    decodeWord 0x7C642C6E = .ok (.lfsux 3 4 5) ∧
    decodeWord 0x7C642CAE = .ok (.lfdx 3 4 5) ∧
    decodeWord 0x7C642CEE = .ok (.lfdux 3 4 5) ∧
    decodeWord 0x7C642D2E = .ok (.stfsx 3 4 5) ∧
    decodeWord 0x7C642D6E = .ok (.stfsux 3 4 5) ∧
    decodeWord 0x7C642DAE = .ok (.stfdx 3 4 5) ∧
    decodeWord 0x7C642DEE = .ok (.stfdux 3 4 5) ∧
    decodeWord 0x7C642FAE = .ok (.stfiwx 3 4 5) := by
  decide

/-- The words the spec lists (95_test_vectors.md V10 to V1O; the rules of 41 and 42). -/
theorem test_decode_bytes :
    decodeWord 0x88640008 = .ok (.lbz 3 4 8) ∧
    decodeWord 0x8C640008 = .ok (.lbzu 3 4 8) ∧
    decodeWord 0x98640008 = .ok (.stb 3 4 8) ∧
    decodeWord 0x9C640008 = .ok (.stbu 3 4 8) ∧
    decodeWord 0x7C6428AE = .ok (.lbzx 3 4 5) ∧
    decodeWord 0x7C6428EE = .ok (.lbzux 3 4 5) ∧
    decodeWord 0x7C6429AE = .ok (.stbx 3 4 5) ∧
    decodeWord 0x7C6429EE = .ok (.stbux 3 4 5) := by
  decide

/-- The words the spec lists (95_test_vectors.md V10 to V1O; the rules of 41 and 42). -/
theorem test_decode_cache :
    decodeWord 0x7C042FAC = .ok (.icbi 4 5) ∧
    decodeWord 0x7C042BAC = .ok (.dcbi 4 5) ∧
    decodeWord 0x7C04286C = .ok (.dcbst 4 5) ∧
    decodeWord 0x7C0428AC = .ok (.dcbf 4 5) := by
  decide

/-- 95_test_vectors.md section 2, decoding corner cases. -/
theorem test_decode_rejects :
    decodeWord 0x44000000 = .error .reservedField ∧ decodeWord 0x4C000065 = .error .reservedField ∧
    decodeWord 0x00000000 = .error .unknownOpcode ∧ decodeWord 0x7C6100A6 = .error .reservedField ∧
    decode [0x7C, 0x60] = .error .truncated := by
  decide

/-- A table word is read from the same bytes. -/
theorem test_decodeTableWord : decodeTableWord 32 0x80640008 = some (.lwz 3 4 8) := by decide

/-! ## Well-formed instructions (30_encoding.md R100, 42 R219) -/

/-- An integer load with update names a base other than r0 and other than its target. -/
theorem test_wellFormed_load_update :
    (Instr.lwzu 3 4 8).wellFormed = true ∧ (Instr.lwzu 3 0 8).wellFormed = false ∧
    (Instr.lwzu 3 3 8).wellFormed = false ∧ (Instr.ldux 0 0 5).wellFormed = false := by
  decide

/-- A store with update, and a floating-point load with update, name a base other than r0. -/
theorem test_wellFormed_update_base :
    (Instr.stwu 3 3 8).wellFormed = true ∧ (Instr.stwu 3 0 8).wellFormed = false ∧
    (Instr.lfdu 4 4 8).wellFormed = true ∧ (Instr.lfdu 4 0 8).wellFormed = false := by
  decide

/-- `lmw` does not load its base. -/
theorem test_wellFormed_multiple :
    (Instr.lmw 29 4 0).wellFormed = true ∧ (Instr.lmw 3 4 8).wellFormed = false := by
  decide

/-! ## Vectors run for one step -/

/-- A 32-bit implementation as 95_test_vectors.md takes it. -/
def config32 : Config :=
  { Config.atReset with xlen := .w32, hasTrace := false, hasDabr := false, resetIp := false }

/-- Every page at its own address, with the given answer for data from `base` on. -/
def mapping (result : XlateResult) : List XlateRule :=
  [{ kinds := [.load, .store], base := 0x8000, size := 0x1000, result := result },
   { kinds := [.fetch, .load, .store], base := 0, size := 2 ^ 64, result := .ok 0 {} }]

/-- A state about to run the instruction at `pc` under `msr`. -/
def start (c : Config) (msr pc : Word) : State :=
  { State.reset with cfg := c, msr := msr, nia := pc, dec := 0x10 }

/-- One step with a word at the fetch address. -/
def run (s : State) (w : Nat) : Result := step (s.withFetchWord 32 w)

/-- The answer is a next state with the property. -/
def after (r : Result) (p : State → Bool) : Bool :=
  match r with
  | .next t => p t
  | _ => false

/-- SRR0, SRR1, MSR and NIA. -/
def entered (t : State) (srr0 srr1 msr nia : Word) : Bool :=
  t.srr0 == srr0 && t.srr1 == srr1 && t.msr == msr && t.nia == nia

/-- V20, V3H. -/
theorem test_sc : after (run (start { config32 with xlate := mapping (.ok 0 {}) } 0xD032 0x1000) 0x44000002)
    (entered · 0x1004 0xD032 0x1000 0xC00) = true := by decide

/-- V22. -/
theorem test_rfi : after (run { start config32 0x00011000 0x510 with srr0 := 0x2003, srr1 := 0x0004D032 }
    0x4C000064) (entered · 0x2003 0x0004D032 0x0001D032 0x2000) = true := by decide

/-- V23. -/
theorem test_rfi_user : after (run { start config32 0x5002 0x3000 with srr0 := 0x2000 } 0x4C000064)
    (entered · 0x3000 0x00045002 0x1000 0x700) = true := by decide

/-- V29. -/
theorem test_rfid : after (run { start Config.atReset 0x8000000000001000 0x510 with
    srr0 := 0x2003, srr1 := 0x8000000000009032 } 0x4C000024)
    (entered · 0x2003 0x8000000000009032 0x8000000000009032 0x2000) = true := by decide

/-- V28. -/
theorem test_mtmsr : after (run ((start Config.atReset 0x8000000000001000 0x100).setGpr 3
    0xFFFFFFFF00009032) 0x7C600124) (fun t => t.msr == 0x8000000000009032 && t.nia == 0x104) = true := by
  decide

/-- V27 and V2C. -/
theorem test_mfmsr : after (run (start config32 0x9002 0x100) 0x7C6000A6)
    (fun t => t.readGpr 3 == 0x9002) = true := by decide

theorem test_mfspr_user : after (run (start config32 0x5002 0x3000) 0x7C9202A6)
    (entered · 0x3000 0x00045002 0x1000 0x700) = true := by decide

/-- V2B. -/
theorem test_mfspr : after (run { start config32 0x1000 0x100 with dsisr := 0x0A000000 } 0x7C9202A6)
    (fun t => t.readGpr 4 == 0x0A000000) = true := by decide

/-- V2D: SPR 0 is not defined. -/
theorem test_mfspr_undefined : after (run (start config32 0x1002 0x3000) 0x7C8002A6)
    (entered · 0x3000 0x00081002 0x1000 0x700) = true := by decide

/-- V61: the request, then the step's count. -/
theorem test_mtspr_dec : after (run ((start config32 0x1000 0x100).setGpr 3 0x80000000) 0x7C7603A6)
    (fun t => t.decPending && t.dec == 0x7FFFFFFF) = true := by decide

/-- V62. -/
theorem test_mtspr_dec_no_request :
    after (run { (start config32 0x1000 0x100).setGpr 3 0x80000000 with dec := 0xFFFFFFF0 } 0x7C7603A6)
      (fun t => !t.decPending) = true := by decide

/-- V2F and V2G. -/
theorem test_twi : after (run ((start config32 0x9002 0x3000).setGpr 3 1) 0x0D030000)
    (entered · 0x3000 0x00029002 0x1000 0x700) = true := by decide

theorem test_twi_negative : after (run ((start config32 0x9002 0x3000).setGpr 3 0x80000000) 0x0D030000)
    (fun t => t.nia == 0x3004 && !t.taken) = true := by decide

/-- V2L: only the low words are compared by `tw`, all 64 bits by `td`. -/
theorem test_tw_low_words :
    after (run (((start Config.atReset 0x8000000000001000 0x100).setGpr 3 0x100000005).setGpr 4 5)
      0x7C832008) (fun t => t.taken) = true := by decide

theorem test_td_double_words :
    after (run (((start Config.atReset 0x8000000000001000 0x100).setGpr 3 0x100000005).setGpr 4 5)
      0x7C832088) (fun t => !t.taken) = true := by decide

/-- V2M. -/
theorem test_tdi :
    after (run ((start Config.atReset 0x8000000000001000 0x100).setGpr 3 0xFFFFFFFFFFFFFFFF) 0x0883FFFF)
      (fun t => t.taken) = true := by decide

/-- V2N. -/
theorem test_mtmsrd_absent : after (run (start config32 0x1002 0x3000) 0x7C600164)
    (entered · 0x3000 0x00081002 0x1000 0x700) = true := by decide

/-- V2O. -/
theorem test_sync : after (run (start config32 0x1000 0x100) 0x7C0004AC) (fun t => t.nia == 0x104) = true := by
  decide

/-- With a window open `isync` closes it (40 R125). -/
theorem test_isync : after (exec .isync { start config32 0x1000 0x100 with window := [0x9000] })
    (fun t => t.window == [] && t.context == 0x1000) = true := by decide

/-- V31: a system reset that lost state. -/
theorem test_system_reset : after (step { start config32 0x9002 0x5000 with
    sresetReq := true, sresetLost := true })
    (fun t => entered t 0x5000 0x9000 0x1000 0x100 && !t.sresetReq) = true := by decide

/-- V32. -/
theorem test_machine_check : after (step { start config32 0x1002 0x4000 with mcheckReq := true })
    (fun t => entered t 0x4000 0x1002 0 0x200 && !t.mcheckReq) = true := by decide

/-- V33. -/
theorem test_checkstop : after (step { start config32 0x8002 0x5000 with mcheckReq := true, dec := 5 })
    (fun t => entered t 0 0 0x8002 0x5000 && t.checkstop && t.dec == 5) = true := by decide

/-- V36: the SRR1 and vector of an ISI; DSISR and DAR keep their values. -/
theorem test_isi : after (step { start config32 0x9032 0x10000 with dsisr := 0xAAAAAAAA, dar := 0xBBBBBBBB })
    (fun t => entered t 0x10000 0x40009032 0x1000 0x400 && t.dsisr == 0xAAAAAAAA && t.dar == 0xBBBBBBBB)
      = true := by decide

/-- V37: a guarded page. -/
theorem test_isi_guarded : after (step (start { config32 with xlate :=
    [{ kinds := [.fetch], base := 0, size := 2 ^ 32, result := .ok 0 { guarded := true } }] } 0x9032 0x10000))
    (entered · 0x10000 0x10009032 0x1000 0x400) = true := by decide

/-- V39: the vector base of IP = 1 on 32 bits, LE the old ILE. -/
theorem test_external : after (step { start config32 0x0001D072 0x2000 with extSignal := true })
    (fun t => entered t 0x2000 0xD072 0x00011041 0xFFF00500 && t.extSignal) = true := by decide

/-- V3B. -/
theorem test_illegal : after (run (start config32 0x1002 0x3000) 0)
    (entered · 0x3000 0x00081002 0x1000 0x700) = true := by decide

/-- V3E. -/
theorem test_float_enabled : after (step { start config32 0x1902 0x3008 with fex := true })
    (entered · 0x3008 0x00111902 0x1000 0x700) = true := by decide

/-- V3F and V71: floating-point unavailable before everything else. -/
theorem test_float_unavailable : after (run ((start config32 0x1003 0x3000).setGpr 4 0x8001) 0xC8240000)
    (fun t => t.nia == 0x800 && t.srr0 == 0x3000) = true := by decide

/-- V3G. -/
theorem test_decrementer : after (step { start config32 0x9002 0x2008 with decPending := true })
    (fun t => entered t 0x2008 0x9002 0x1000 0x900 && !t.decPending) = true := by decide

/-- V3I. -/
theorem test_trace : after (run (start { config32 with hasTrace := true } 0x1402 0x6000) 0x7C0004AC)
    (entered · 0x6004 0x1402 0x1000 0xD00) = true := by decide

/-- Group D of 60 R256: after `mtmsr` a floating-point enabled exception goes before trace. -/
theorem test_float_before_trace :
    let t := traceAfter (.mtmsr 3) true false
      { start { config32 with hasTrace := true } 0x1902 0x6004 with fex := true }
    entered t 0x6004 0x00111902 0x1000 0x700 = true := by decide

/-- 70 R365: an external interrupt that the new MSR enables is taken before an instruction that would close
the `mtmsr` window. -/
theorem test_settle :
    let s : State := { start config32 0x9002 0x6004 with window := [0x1002], extSignal := true }
    let t := settle s { s with window := [], nia := 0x500, taken := true }
    t.srr0 = 0x6004 ∧ t.srr1 = 0x9002 ∧ t.msr = 0x1000 := by decide

/-- 70 R365: an external interrupt that the MSR enables is taken before a second `mtmsr` that would clear
`EE` (notes/assumptions/11.md). -/
theorem test_settle_disable :
    let s : State := { start config32 0x9002 0x6004 with window := [0x1002], extSignal := true }
    let t := settle s { s with msr := 0x1002, window := [0x9002, 0x1002], nia := 0x6008 }
    t.srr0 = 0x6004 ∧ t.srr1 = 0x9002 ∧ t.msr = 0x1000 := by decide

/-- 70 R366: an external interrupt is context synchronizing, so that a floating-point exception that the MSR
enables and an earlier value did not goes before it, whatever is in force. -/
theorem test_float_before_external :
    let s : State := { start config32 0x9800 0x6004 with
      window := [0x9000], fex := true, extSignal := true }
    boundaryException s = some (takeException (.program .fpEnabled true) 0x6004 s) := by
  intro s
  have h : msrEE s.context = true :=
    mixContext_agree s.draws (k := 48) (by decide) [0x9000] 0x9800 (by decide) fun w hw => by
      rw [List.mem_singleton.1 hw]; decide
  rw [boundaryException_eq, h]
  simp only [show s.sresetReq = false from rfl, show s.mcheckReq = false from rfl,
    show s.fex = true from rfl, show s.extSignal = true from rfl,
    show msrFE0 s.msr = true by decide, show s.nia = 0x6004 from rfl]
  simp

/-- Two requests before one is taken: state is lost where either lost it (notes/assumptions/41.md). -/
theorem test_requests_join :
    let t := beginStep { start config32 0x1000 0x100 with
      env := [[.requestSystemReset true, .requestSystemReset false]] }
    t.sresetReq = true ∧ t.sresetLost = true ∧ t.env = [] := by decide

/-- V3K and V3L: reserved MSR bits, copied or not. -/
theorem test_reserved_bits :
    entered (takeException .systemCall 4 { start config32 0xFFFFFFFF 0 with cia := 0 }) 4 0x87C0FFFF
      0xFFFB10CD 0xFFF00C00 = true ∧
    saveImage { config32 with copyReserved := false, hasTrace := true } .systemCall 0xFFFFFFFF =
      0xFF73 := by
  decide

/-- V3N, V3O and V3P: the 64-bit mode on entry. -/
theorem test_entry_64 :
    entryMsr { Config.atReset with hasIsf := true } .external 0x8000000000009032 = 0x1000 ∧
    entryMsr { Config.atReset with hasIsf := true } .external 0xA000000000009032 = 0xA000000000001000 ∧
    saveImage Config.atReset (.isi .noTranslation) 0x8000000000009032 = 0x40009032 ∧
    entryMsr Config.atReset .systemCall 0x9032 = 0x8000000000001000 := by
  decide

/-- A 32-bit state with data translation on, whose page 0x8000 answers as given, `x[6]` = 0x8000. -/
def mapped (result : XlateResult) : State :=
  (start { config32 with xlate := mapping result } 0x1012 0x3004).setGpr 6 0x8000

/-- V34: a store to an unmapped page writes nothing. -/
theorem test_dsi_store : after (run (mapped .noTranslation) 0x90A60004)
    (fun t => entered t 0x3004 0x1012 0x1000 0x300 && t.dsisr == 0x42000000 && t.dar == 0x8004) = true := by
  decide

/-- V44: a direct-store error. -/
theorem test_dsi_direct_store : after (run (mapped (.directStoreError 0x8000)) 0x80A60004)
    (fun t => t.dsisr == 0x80000000) = true := by decide

/-- V45, V46 and V47: reservation instructions and write-through memory. -/
theorem test_dsi_lwarx : after (run (mapped (.ok 0x8000 { writeThrough := true })) 0x7C603028)
    (fun t => t.dsisr == 0x04000000) = true := by decide

theorem test_dsi_stwcx : after (run { mapped (.protection { writeThrough := true }) with
    reservation := some 0 } 0x7C60312D) (fun t => t.dsisr == 0x0E000000) = true := by decide

/-- V49: external control disabled and no translation. -/
theorem test_dsi_ecowx : after (run (mapped .noTranslation) 0x7C60336C)
    (fun t => t.dsisr == 0x42100000) = true := by decide

/-- V4B: a DABR match with protection. -/
theorem test_dsi_dabr : after (run { mapped (.protection {}) with
    cfg := { config32 with hasDabr := true, xlate := mapping (.protection {}) }, dabr := 0x8006 }
    0x90A60004) (fun t => t.dsisr == 0x0A400000 && t.dar == 0x8004) = true := by decide

/-- V4D, V4E and V4F: the cache instructions. -/
theorem test_dsi_dcbz : after (run (mapped (.protection {})) 0x7C0037EC)
    (fun t => t.dsisr == 0x0A000000) = true := by decide

theorem test_dsi_dcbf : after (run (mapped .noTranslation) 0x7C0030AC)
    (fun t => t.dsisr == 0x40000000) = true := by decide

theorem test_dsi_dcbi : after (run (mapped .noTranslation) 0x7C0033AC)
    (fun t => t.dsisr == 0x42000000) = true := by decide

/-- V3Q: in 32-bit mode of a 64-bit implementation the high half of the DAR is zero. -/
theorem test_dsi_mode32 : after (run ((start { Config.atReset with xlate := mapping .noTranslation } 0x1012
    0x3004).setGpr 6 0xFFFFFFFF00008000) 0x90A60004) (fun t => t.dar == 0x8004) = true := by decide

/-- V3A: `lmw` in little-endian mode. -/
theorem test_lmw_little_endian :
    let s := start config32 0x1003 0x3000
    let a := multipleAccess (.lmw 29 4 0) false 29 0x5000
    s.alignChoice a = .exception ∧ s.alignImage a = 0x00001FA4 := by
  decide

/-- A partly executed multiple moves words in the current byte order (20 R68, R76): the word at the
address exclusive-or 4, and each byte of a stored register at its address exclusive-or 7. -/
theorem test_partial_multiple_little_endian :
    let s := { (start config32 0x1001 0x3000).setGpr 31 0x11223344 with
      mem := [(0x5004, 1), (0x5005, 2), (0x5006, 3), (0x5007, 4)] }
    let a := multipleAccess (.lmw 31 4 0) false 31 0x5000
    s.wordAt a 0 = 0x01020304 ∧ s.bytePa a 0 = 0x5007 ∧ s.wordBytes a 31 = [0x44, 0x33, 0x22, 0x11] := by
  decide

/-- The DAR of a DABR match is rounded to a double word for a double-word access alone (61 R303). -/
theorem test_dar_dabr :
    let s := start config32 0x1000 0x3000
    s.faultDar (stringAccess (.lswi 5 4 8) false 8 0x1004) 0 true 0 = 0x1004 ∧
    s.faultDar (multipleAccess (.lmw 30 4 0) false 30 0x1004) 0 true 0 = 0x1004 ∧
    s.faultDar (intAccess (.ld 5 4 0) false 8 0x1004) 0 true 0 = 0x1000 := by
  decide

/-- V72: alignment before DSI. -/
theorem test_alignment_first : after (run { (mapped .noTranslation).setGpr 6 0x8001 with msr := 0x1013 }
    0x80A60004) (fun t => t.nia == 0x600 && t.dar == 0x8005) = true := by decide

/-- Memory with CAFEF00D 01020304 at 0x5000, `x[4]` = 0x5000, `x[3]` = 0x1122334455667788. -/
def loaded (c : Config) (msr : Word) : State :=
  ({ start c msr 0x3000 with mem := [(0x5000, 0xCA), (0x5001, 0xFE), (0x5002, 0xF0), (0x5003, 0x0D),
      (0x5004, 1), (0x5005, 2), (0x5006, 3), (0x5007, 4)] }.setGpr 4 0x5000).setGpr 3 0x1122334455667788

/-- P3 step 1; on 64 bits the high half is zero (41 R141). -/
theorem test_lwz : after (run (loaded Config.atReset 0x8000000000001000) 0x80A40000)
    (fun t => t.readGpr 5 == 0xCAFEF00D && t.nia == 0x3004) = true := by decide

/-- Little-endian mode: the word at the address exclusive-or 4 (20 R68). -/
theorem test_lwz_little_endian : after (exec (.lwz 5 4 0) (loaded config32 0x1001))
    (fun t => t.readGpr 5 == 0x01020304) = true := by decide

/-- Sign extension with update (42 R194). -/
theorem test_lhaux : after (exec (.lhaux 5 4 0) (loaded Config.atReset 0x8000000000001000))
    (fun t => t.readGpr 5 == 0xFFFFFFFFFFFFCAFE && t.readGpr 4 == 0x5000) = true := by decide

/-- 41 R161. -/
theorem test_ld : after (exec (.ld 5 4 0) (loaded Config.atReset 0x8000000000001000))
    (fun t => t.readGpr 5 == 0xCAFEF00D01020304) = true := by decide

/-- A store with update of the base stores its old value (41 R144). -/
theorem test_stwu : after (exec (.stwu 4 4 8) (loaded config32 0x1000)) (fun t =>
    t.readGpr 4 == 0x5008 && Memory.read t.mem 0x500A == 0x50 && Memory.read t.mem 0x5003 == 0x0D) = true := by
  decide

/-- Byte reverse (41 R180, R183). -/
theorem test_lwbrx : after (exec (.lwbrx 5 0 4) (loaded config32 0x1000))
    (fun t => t.readGpr 5 == 0x0DF0FECA) = true := by decide

theorem test_sthbrx : after (exec (.sthbrx 3 0 4) (loaded config32 0x1000))
    (fun t => Memory.read t.mem 0x5000 == 0x88 && Memory.read t.mem 0x5001 == 0x77) = true := by decide

/-- Registers wrap from 31 to 0, the last is filled with zeros (41 R175). -/
theorem test_lswi : after (exec (.lswi 31 4 6) (loaded config32 0x1000))
    (fun t => t.readGpr 31 == 0xCAFEF00D && t.readGpr 0 == 0x01020000 && t.readGpr 1 == 0) = true := by decide

/-- 41 R151. -/
theorem test_lmw : after (exec (.lmw 30 4 0) (loaded config32 0x1000))
    (fun t => t.readGpr 30 == 0xCAFEF00D && t.readGpr 31 == 0x01020304) = true := by decide

/-- V75: a string of no bytes. -/
theorem test_lswx_zero : after (exec (.lswx 5 0 6) (mapped .noTranslation)) (fun t => !t.taken) = true := by
  decide

/-- A conditional store that succeeds and one that does not (41 R178). -/
theorem test_stwcx_stored : after (exec (.stwcxDot 3 0 4) { loaded config32 0x1000 with
    reservation := some 0x6000 }) (fun t => t.cr == 0x20000000 && Memory.read t.mem 0x5003 == 0x88
      && t.reservation == none) = true := by decide

theorem test_stwcx_failed : after (exec (.stwcxDot 3 0 4) { loaded config32 0x1000 with xer := 0x80000000 })
    (fun t => t.cr == 0x10000000 && Memory.read t.mem 0x5003 == 0x0D) = true := by decide

/-- 41 R185. -/
theorem test_ecowx : after (exec (.ecowx 3 0 4) { loaded Config.atReset 0x8000000000001000 with
    ear := 0x80000000 }) (fun t => t.extOut == [{ pa := 0x5000, word := 0x55667788, sent := 0b1111 }]) = true := by
  decide

/-- 41 R186, with blocks of 4 bytes. -/
theorem test_dcbz : after (exec (.dcbz 0 4) (loaded { config32 with blockLog := 2 } 0x1000)) (fun t =>
    Memory.read t.mem 0x5000 == 0 && Memory.read t.mem 0x5003 == 0 && Memory.read t.mem 0x5004 == 1) = true := by
  decide

/-- The single 1.5 and a denormalized single in double format (41 R153). -/
theorem test_doubleOfSingle :
    doubleOfSingle 0x3FC00000 = 0x3FF8000000000000 ∧ doubleOfSingle 0x00000001 = 0x36A0000000000000 ∧
    doubleOfSingle 0x80000000 = 0x8000000000000000 ∧ doubleOfSingle 0x7F800000 = 0x7FF0000000000000 := by
  decide

/-- And back (41 R157); a value too large for the single format has no stated result. -/
theorem test_singleOfDouble :
    singleOfDouble? 0x3FF8000000000000 = some 0x3FC00000 ∧
    singleOfDouble? 0x36A0000000000000 = some 0x00000001 ∧ singleOfDouble? 0x7FEFFFFFFFFFFFFF = none := by
  decide

/-- V50, V53 and V5B: the fixed bits of DSISR images. -/
theorem test_images :
    imageOpcode 0x80640008 = 0 ∧ imageOpcode 0x7C642AAA = 0b0000100101 ∧
    imageOpcode 0xE8640009 = 0b0100001101 ∧ imageOpcode 0x7C6428A8 = 0b0000000001 := by
  decide

/-! ## For every statement with hypotheses, a state that meets them -/

/-- The next state of an answer that has a property. -/
theorem after_next {r : Result} {p : State → Bool} (h : after r p = true) :
    ∃ t, r = .next t ∧ p t = true := by
  cases r with
  | next t => exact ⟨t, rfl, h⟩
  | fault f => cases h
  | refused f => cases h

/-- A 64-bit state in supervisor mode with floating point and machine checks on, external control enabled,
a reservation held, and `x[4]` = 0x1000. -/
def bench : State :=
  { (start Config.atReset 0x8000000000003000 0x100).setGpr 4 0x1000 with
    ear := 0x80000000, reservation := some 0x1000, xer := 8 }

/-- The state with a word where the next step fetches. -/
def about (msr : Word) (w : Nat) : State := (start Config.atReset msr 0x100).withFetchWord 32 w

/-- The access of each instruction is clear. -/
def ready (s : State) (l : List Instr) : Bool :=
  l.all fun i => match accessOf s i with
    | some a => clear s a
    | none => false

/-- Each instruction is admitted and its access has the property. -/
def meets (s : State) (l : List Instr) (p : Access → Bool) : Bool :=
  l.all fun i => admitted s i && match accessOf s i with
    | some a => p a
    | none => false

theorem test_meets_EncodeInvertsDecode : decodeWord 0x7C642AAA = .ok (.lwax 3 4 5) := by decide

theorem test_meets_StepRunsDecodedInstruction :
    let s := about 0x8000000000001000 0x7C0004AC
    (beginStep s).checkstop = false ∧ boundaryException (beginStep s) = none ∧
    asleep (beginStep s) = false ∧ (beginInstruction (beginStep s)).fetch = .word 0x7C0004AC ∧
    decode (bytesOfWord 0x7C0004AC) = .ok (.sync, []) ∧ Instr.sync.wellFormed = true := by
  decide

theorem test_meets_UndecodableWordIsIllegal :
    let s := about 0x8000000000001000 0x4C000065
    let o : State := { s with window := [s.msr] }
    (beginStep s).checkstop = false ∧ boundaryException (beginStep s) = none ∧
    (beginStep s).window = [] ∧ boundaryExceptionIn (beginStep o).msr (beginStep o) = none ∧
    asleep (beginStep s) = false ∧ (beginInstruction (beginStep s)).fetch = .word 0x4C000065 ∧
    decode (bytesOfWord 0x4C000065) = .error .reservedField := by
  decide

/-- Both byte orders, with translation of instruction addresses off and on. -/
theorem test_meets_FetchReadsWord : ([0x1000, 0x1001, 0x1020, 0x1021].all fun m : Word =>
    let s : State := { start { config32 with xlate := mapping .noTranslation } m 0x100 with cia := 0x104 }
    let p := if msrLE s.context then s.cia ^^^ 4 else s.cia
    s.translate .fetch s.cia == .ok 0x104 {} && msrIR s.context == decide (m = 0x1020 ∨ m = 0x1021) &&
      s.cia &&& 3 == 0 && memoryAt s.cfg p && memoryAt s.cfg (p + 1) && memoryAt s.cfg (p + 2) &&
      memoryAt s.cfg (p + 3)) = true := by
  decide

theorem test_meets_StepKeepsInvariant :
    Sys2Proof.Machine.Inv (about 0x8000000000001000 0x7C0004AC) ∧
      ∃ t, step (about 0x8000000000001000 0x7C0004AC) = .next t := by
  refine ⟨by unfold Sys2Proof.Machine.Inv; decide, ?_⟩
  obtain ⟨t, h, -⟩ := after_next (r := step (about 0x8000000000001000 0x7C0004AC))
    (p := fun t => t.nia == 0x104) (by decide)
  exact ⟨t, h⟩

theorem test_meets_SavedImageBits :
    fits Config.atReset 0x8000000000009032 = true ∧ fits config32 0x9032 = true := by decide

theorem test_meets_ExceptionEntersHandlerContext :
    ∃ t, step (about 0x8000000000009000 0x44000002) = .next t ∧ t.taken = true :=
  after_next (p := fun t => t.taken) (by decide)

theorem test_meets_UserModeLeftOnlyByException :
    let s := about 0x8000000000004000 0x7C6000A6
    s.window = [] ∧ noHardReset s ∧ msrPR s.msr = true ∧ ∃ t, step s = .next t ∧ !msrPR t.msr := by
  refine ⟨by decide, by unfold noHardReset; decide, by decide, ?_⟩
  exact after_next (p := fun t => !msrPR t.msr) (by decide)

theorem test_meets_UserModeKeepsSupervisorState :
    let s := about 0x8000000000004000 0x7C7A03A6
    let u := about 0x8000000000004000 0x7C0004AC
    s.cfg.srrClobber = false ∧ u.window = [] ∧ noHardReset u ∧ msrPR u.msr = true ∧
      ∃ t, step u = .next t ∧ !t.taken := by
  refine ⟨by decide, by decide, by unfold noHardReset; decide, by decide, ?_⟩
  exact after_next (p := fun t => !t.taken) (by decide)

theorem test_meets_ReturnRestores :
    msrPR bench.context = false ∧ Instr.rfi.provided bench.cfg = true ∧ bench.cfg.is64 = true := by decide

theorem test_meets_EntryThenReturn :
    bench.cfg.is64 = true ∧ bench.cfg.copyReserved = true ∧
    Exc.systemCall ≠ .isi .protection ∧ Exc.systemCall ≠ .systemReset true ∧
    Exc.systemCall ≠ .machineCheck true := by decide

/-- Each of the five comparisons, alone, and none. -/
theorem test_meets_Traps :
    bench.cfg.is64 = true ∧ trapCond 16 (-1) 1 = true ∧ trapCond 8 1 (-1) = true ∧
    trapCond 4 5 5 = true ∧ trapCond 2 1 (-1) = true ∧ trapCond 1 (-1) 1 = true ∧
    trapCond 0 5 5 = false ∧ trapCond 27 5 5 = false := by decide

theorem test_meets_ReadMsr : msrPR bench.context = false := by decide

theorem test_meets_MsrWritesTakeEffect :
    msrPR bench.context = false ∧ Instr.provided bench.cfg (.mtmsr 3) = true ∧
    bench.cfg.is64 = true ∧ bench.window = [] := by decide

theorem test_meets_ReadSpr :
    msrPR bench.context = false ∧ bench.srr0 &&& 3 = 0 ∧ bench.cfg.hasExtControl = true ∧
    bench.cfg.hasDabr = true := by decide

theorem test_meets_WriteSpr :
    msrPR bench.context = false ∧ bench.cfg.hasExtControl = true ∧ bench.cfg.hasDabr = true := by decide

theorem test_meets_PrivilegedInUserMode :
    let u := about 0x8000000000004000 0
    (msrPR u.context = true ∧ (1008 : SprNum).getLsbD 4 = true ∧
      ∀ i ∈ [Instr.rfi, .rfid, .mtmsr 3, .mtmsrd 3, .mfmsr 3, .dcbi 4 5], i.provided u.cfg = true) ∧
    ((1008 : SprNum) ∉ [1, 18, 19, 22, 26, 27, 282, 1013] ∧ msrPR bench.context = false) ∧
    ((8 : SprNum) ∉ [1, 18, 19, 22, 26, 27, 282, 1013] ∧ (8 : SprNum).getLsbD 4 = false) := by decide

theorem test_meets_IllegalForms :
    Instr.provided config32 (.ld 3 4 0) = false ∧
    Instr.provided { Config.atReset with hasBridgeRfi := false } .rfi = false ∧
    Instr.provided { Config.atReset with hasExtControl := false } (.eciwx 3 4 5) = false ∧
    formValid bench (.lwzu 3 0 0) = false ∧ formValid bench (.lwzu 3 3 0) = false ∧
    formValid bench (.lmw 3 3 0) = false ∧ formValid bench (.lswx 3 4 6) = false ∧
    formValid bench (.lswx 3 6 4) = false := by decide

theorem test_meets_FloatUnavailable :
    let s := about 0x8000000000001000 0
    (Instr.lfd 1 4 0).isFloat = true ∧ Instr.provided s.cfg (.lfd 1 4 0) = true ∧
    (Instr.lfd 1 4 0).validForm = true ∧ msrFP s.context = false := by decide

theorem test_meets_IntegerLoads :
    bench.cfg.is64 = true ∧ ready bench [.lwz 3 4 8, .lwzx 3 4 5, .lhz 3 4 8, .lhzx 3 4 5, .lbz 3 4 8,
      .lbzx 3 4 5, .lha 3 4 8, .lhax 3 4 5, .ld 3 4 2, .ldx 3 4 5, .lwa 3 4 2, .lwax 3 4 5] = true := by
  decide

theorem test_meets_UpdateLoads :
    (4 : Reg) ≠ 0 ∧ (4 : Reg) ≠ 3 ∧ bench.cfg.is64 = true ∧ ready bench [.lwzu 3 4 8, .lwzux 3 4 5,
      .lhzu 3 4 8, .lhzux 3 4 5, .lbzu 3 4 8, .lbzux 3 4 5, .lhau 3 4 8, .lhaux 3 4 5, .ldu 3 4 2,
      .ldux 3 4 5, .lwaux 3 4 5] = true := by decide

theorem test_meets_ByteReverse :
    bench.mem.wf = true ∧ ready bench [.lwbrx 3 4 5, .lhbrx 3 4 5, .stwbrx 3 4 5, .sthbrx 3 4 5] = true := by
  decide

theorem test_meets_IntegerStores :
    bench.mem.wf = true ∧ bench.cfg.is64 = true ∧ ready bench [.stw 3 4 8, .stwx 3 4 5, .sth 3 4 8,
      .sthx 3 4 5, .stb 3 4 8, .stbx 3 4 5, .std 3 4 2, .stdx 3 4 5] = true := by decide

theorem test_meets_UpdateStores :
    bench.mem.wf = true ∧ (4 : Reg) ≠ 0 ∧ bench.cfg.is64 = true ∧ ready bench [.stwu 3 4 8, .stwux 3 4 5,
      .sthu 3 4 8, .sthux 3 4 5, .stbu 3 4 8, .stbux 3 4 5, .stdu 3 4 2, .stdux 3 4 5] = true := by decide

theorem test_meets_FloatLoads :
    msrFP bench.context = true ∧ (4 : Reg) ≠ 0 ∧ ready bench [.lfs 3 4 8, .lfsx 3 4 5, .lfd 3 4 8,
      .lfdx 3 4 5, .lfsu 3 4 8, .lfsux 3 4 5, .lfdu 3 4 8, .lfdux 3 4 5] = true := by decide

theorem test_meets_FloatStores :
    bench.mem.wf = true ∧ msrFP bench.context = true ∧ bench.cfg.hasStfiwx = true ∧ (4 : Reg) ≠ 0 ∧
    ready bench [.stfs 3 4 8, .stfsx 3 4 5, .stfd 3 4 8, .stfdx 3 4 5, .stfiwx 3 4 5, .stfsu 3 4 8,
      .stfsux 3 4 5, .stfdu 3 4 8, .stfdux 3 4 5] = true := by decide

theorem test_meets_MultipleWords :
    (4 : Reg).toNat < (30 : Reg).toNat ∧ bench.mem.wf = true ∧
    ready bench [.lmw 30 4 8, .stmw 30 4 8] = true := by decide

theorem test_meets_StringTransfers :
    (bench.xer &&& 0x7F).toNat = 8 ∧ stringFormValid 6 4 5 8 = true ∧ bench.mem.wf = true ∧
    ready bench [.lswi 31 4 6, .lswx 6 4 5, .stswi 31 4 0, .stswx 6 4 5] = true ∧
    ((start config32 0 0).xer &&& 0x7F).toNat = 0 := by decide

theorem test_meets_ReservedAccesses :
    let s : State := { bench with reservation := none }
    bench.mem.wf = true ∧ bench.cfg.is64 = true ∧ bench.reservation.isSome = true ∧
    s.reservation.isSome = false ∧
    ready bench [.lwarx 3 4 5, .ldarx 3 4 5, .stwcxDot 3 4 5, .stdcxDot 3 4 5] = true ∧
    ready s [.stwcxDot 3 4 5, .stdcxDot 3 4 5] = true := by decide

theorem test_meets_ExternalControl :
    let s : State := { bench with cfg := { Config.atReset with hasDabr := false }, ear := 0 }
    bench.cfg.hasExtControl = true ∧ ready bench [.eciwx 3 4 5, .ecowx 3 4 5] = true ∧
    s.cfg.hasExtControl = true ∧ s.cfg.hasDabr = false ∧ earE s.ear = false ∧
    msrDR s.context = false ∧ (s.eaX 4 5).toNat % 4 = 0 := by decide

theorem test_meets_CacheInstructions :
    bench.mem.wf = true ∧ ready bench [.dcbz 4 5] = true ∧ msrPR bench.context = false ∧
    ready bench [.icbi 4 5, .dcbst 4 5, .dcbf 4 5, .dcbi 4 5] = true := by decide

theorem test_meets_AlignmentTaken :
    let s := bench.setGpr 4 0x1001
    meets s [.lwarx 3 4 0, .stwcxDot 3 4 0, .lmw 30 4 0, .stmw 30 4 0, .lfd 3 4 0, .stfd 3 4 0, .ld 3 4 0,
      .std 3 4 0, .eciwx 3 4 0, .ecowx 3 4 0] (fun a => s.alignChoice a == .exception) = true := by
  decide

/-- A state with data translation on and a mapping that answers `result` at 0x8000, `x[6]` = 0x8000. -/
def faulting (result : XlateResult) : State :=
  { bench.setGpr 6 0x8000 with
    cfg := { Config.atReset with xlate := mapping result, hasDabr := false }
    msr := 0x8000000000003010 }

theorem test_meets_DsiTaken :
    let s := faulting .noTranslation
    s.reservation.isSome = true ∧ meets s [.lwz 3 6 0, .stw 3 6 0, .lmw 30 6 0, .stmw 30 6 0, .lfd 3 6 0,
      .stfd 3 6 0, .lwarx 3 6 0, .stwcxDot 3 6 0, .eciwx 3 6 0, .ecowx 3 6 0, .dcbz 6 0, .icbi 6 0]
      (fun a => s.alignChoice a == .correct && (s.dataFault a).isSome) = true ∧
    -- without the reservation: at an address where a normal store faults, and where none would
    meets { s with reservation := none } [.stwcxDot 3 6 0] (fun a => (s.dataFault { a with cls := .int }).isSome &&
      !s.anyDirect a) = true ∧
    let w : State := { faulting (.ok 0x8000 { writeThrough := true }) with reservation := none }
    meets w [.stwcxDot 3 6 0] (fun a => w.alignChoice a == .correct && (w.dataFault a).isSome &&
      (w.dataFault { a with cls := .int }).isNone) = true := by
  decide

/-- Each answer of the translation of a first byte that meets a condition, a later byte that does after a
byte that does not, and an access that meets none, with and without `EAR[E]`. -/
theorem test_meets_TranslationFaultBits :
    let a := intAccess (.lwz 3 6 0) false 4 0x8000
    let late := intAccess (.lwz 3 6 0) false 4 0x7FFE
    let s := faulting .noTranslation
    (∀ r ∈ [XlateResult.noTranslation, .segmentFail, .protection {}, .directStoreError 0x8000,
        .ok 0x8000 { writeThrough := true }, .ok 0x8000 { directStore := true },
        .protection { directStore := true }, .ok 0x8000 {}],
      (faulting r).cfg.hasDabr = false ∧ (faulting r).byteXlate a 0 = r ∧
      (faulting r).byteXlate (reserveAccess (.lwarx 3 6 0) false 4 0x8000) 0 = r ∧
      (faulting r).byteXlate (externalAccess (.ecowx 3 6 0) true 0x8000) 0 = r ∧
      (faulting r).byteXlate (zeroAccess (.dcbz 6 0) 0x8000) 0 = r ∧
      (faulting r).byteXlate (cacheAccess (.icbi 6 0) false 0x8000) 0 = r) ∧
    (s.byteXlate late 0 = .ok 0x7FFE {} ∧ s.byteXlate late 1 = .ok 0x7FFF {} ∧
      s.byteXlate late 2 = .noTranslation) ∧
    (∀ i, i < a.len → (faulting (.ok 0x8000 {})).byteXlate a i = .ok (0x8000 + BitVec.ofNat 64 i) {}) ∧
    config32.is64 = false ∧ (externalAccess (.ecowx 3 6 0) true 0x8000).cls = .external ∧
    earE bench.ear = true ∧ earE 0 = false := by
  decide

/-- A match and none for each class, with translation off and on, one beside another condition, and each
case in which a match is undefined. -/
theorem test_meets_BreakpointMatch :
    let s : State := { bench with dabr := 0x1003 }
    let x : State := { faulting .noTranslation with
      cfg := { Config.atReset with xlate := mapping .noTranslation }
      dabr := 0x8007
      reservation := none }
    let past := intAccess (.lwz 3 4 8) false 4 0x1008
    s.cfg.hasDabr = true ∧ msrDR s.context = false ∧ dabrBT s.dabr = false ∧ dabrDR s.dabr = true ∧
    dabrDW s.dabr = true ∧ earE s.ear = true ∧ dabrDR bench.dabr = false ∧
    (∀ a ∈ [intAccess (.lwz 3 4 4) false 4 0x1004, floatAccess (.stfd 3 4 0) true 8 0x1000,
        reserveAccess (.lwarx 3 4 0) false 4 0x1000, externalAccess (.eciwx 3 4 0) false 0x1000,
        stringAccess (.lswi 3 4 5) false 5 0x1003], s.byteEa a 0 >>> 3 = s.dabr >>> 3 ∧ 0 < a.len) ∧
    s.byteEa (multipleAccess (.lmw 30 4 0) false 30 0x0FFC) 4 >>> 3 = s.dabr >>> 3 ∧
    ((zeroAccess (.dcbz 4 0) 0x1018).ea >>> max s.cfg.blockLog 3 = s.dabr >>> max s.cfg.blockLog 3 ∧
      (cacheAccess (.icbi 4 0) false 0x1000).cls = .cache) ∧
    (∀ i, i < past.len → s.byteEa past i >>> 3 ≠ s.dabr >>> 3) ∧
    -- translated: enabled by BT, with a translation condition besides, and without the reservation
    (x.cfg.hasDabr = true ∧ msrDR x.context = true ∧ dabrBT x.dabr = true ∧ dabrDR x.dabr = true ∧
      dabrDW x.dabr = true ∧ x.byteEa (intAccess (.lwz 3 6 0) false 4 0x8000) 0 >>> 3 = x.dabr >>> 3 ∧
      x.byteXlate (intAccess (.lwz 3 6 0) false 4 0x8000) 0 = .noTranslation ∧
      x.byteEa (reserveAccess (.stwcxDot 3 6 0) true 4 0x8000) 0 >>> 3 = x.dabr >>> 3 ∧
      x.reservation = none) := by
  decide

theorem test_meets_AbsentMemory :
    let s : State := { bench with cfg := { Config.atReset with memMap := [] } }
    let q : State := { s with msr := 0x8000000000002000 }
    let r : State := { bench with cfg := { Config.atReset with memMap := [], mcheckOnAbsent := false } }
    let hole := fun (s : State) (a : Access) =>
      s.alignChoice a == .correct && (s.dataFault a).isNone && (s.firstAbsent a).isSome
    (s.cfg.mcheckOnAbsent = true ∧ msrME s.context = true ∧ meets s [.lwz 3 4 0, .dcbz 4 0] (hole s) = true) ∧
    (q.cfg.mcheckOnAbsent = true ∧ msrME q.context = false ∧ meets q [.stw 3 4 0] (hole q) = true) ∧
    (r.cfg.mcheckOnAbsent = false ∧ meets r [.lfd 3 4 0] (hole r) = true) := by
  decide

theorem test_meets_LittleEndianMultiples :
    let s : State := { bench with msr := 0x8000000000003001 }
    msrLE s.context = true ∧ meets s [.lmw 30 4 0, .stmw 30 4 0, .lswi 6 4 8, .lswx 6 4 5, .stswi 6 4 8,
      .stswx 6 4 5] (fun a => a.cls == .multiple || a.cls == .string) = true := by
  decide

/-- A 64-bit state in which ALIGN_POLICY answers undefined everywhere, `x[4]` = 0x1001. -/
def undefinedPolicy : State :=
  { bench.setGpr 4 0x1001 with
    cfg := { Config.atReset with alignRules := [{ choice := .undefined }] }
    msr := 0x8000000000001000 }

theorem test_meets_UndefinedAlignment :
    msrFP undefinedPolicy.context = false ∧
    meets undefinedPolicy [.lmw 30 4 0, .stmw 30 4 0, .lwarx 3 4 0, .ldarx 3 4 0, .stwcxDot 3 4 0,
      .stdcxDot 3 4 0, .eciwx 3 4 0, .ecowx 3 4 0] (fun a => undefinedPolicy.alignChoice a == .undefined) =
      true := by
  decide

theorem test_meets_AlignmentDar :
    let s := bench.setGpr 4 0x1001
    let n : State := { s with msr := 0x3000 }
    let p (s : State) (a : Access) := s.alignChoice a == .exception
    meets s [.lwarx 3 4 0, .stmw 30 4 0, .lfd 3 4 0] (p s) = true ∧
    n.cfg.is64 = true ∧ msrSF n.context = false ∧ meets n [.lwarx 3 4 0, .stmw 30 4 0] (p n) = true := by
  decide

theorem test_meets_AlignedAccessIsClear :
    let s : State := { bench with cfg := { Config.atReset with hasDabr := false } }
    msrLE s.context = false ∧ msrDR s.context = false ∧ s.cfg.hasDabr = false ∧
    ∀ a ∈ [intAccess (.lbz 3 4 1) false 1 0x1001, intAccess (.ld 3 4 0) false 8 0x1000,
        floatAccess (.lfd 3 4 0) false 8 0x1000, reserveAccess (.lwarx 3 4 5) false 4 0x1004,
        multipleAccess (.lmw 30 4 4) false 30 0x1004, stringAccess (.lswi 3 4 5) false 5 0x1003],
      a.naturallyAligned = true ∧ ∀ i, i < a.len → memoryAt s.cfg (s.bytePa a i) = true := by
  decide

/-- Each clause of AlignmentItems: its operand, and the translation it asks for. -/
theorem test_meets_AlignmentItems :
    let s : State := { bench with cfg := { Config.atReset with dcbzUncached := true } }
    let le : State := { bench with msr := 0x8000000000003001 }
    let direct := { faulting (.ok 0x8000 { directStore := true }) with
      cfg := { Config.atReset with xlate :=
        [{ kinds := [.load], base := 0xFFFFFFF, size := 2, result := .ok 0 { directStore := true } }] } }
    let edge := intAccess (.lwz 3 6 0) false 4 0x7FFE
    let bat := faulting (.ok 0x8000 { bat := some 1 })
    (s.cfg.alignRules = [] ∧ le.cfg.alignRules = [] ∧ direct.cfg.alignRules = [] ∧ bat.cfg.alignRules = []) ∧
    ((0x1001 : Nat) % 4 ≠ 0 ∧ (0x1004 : Nat) % 8 ≠ 0 ∧ (0x1002 : Nat) % 4 ≠ 0 ∧ (0x1004 : Nat) % 4 = 0) ∧
    -- (e), (i), (j): bytes 0 and 1 in a direct-store segment, on either side of a 256-Mbyte boundary
    (direct.byteXlate (floatAccess (.lfs 3 6 0) false 2 0xFFFFFFF) 1 = .ok 1 { directStore := true } ∧
      (direct.byteEa (floatAccess (.lfs 3 6 0) false 2 0xFFFFFFF) 0).toNat / 2 ^ 28 = 0 ∧
      (direct.byteEa (floatAccess (.lfs 3 6 0) false 2 0xFFFFFFF) 1).toNat / 2 ^ 28 = 1) ∧
    -- (f), (g): the first byte in one page and no BAT block, a later byte in a BAT block
    (msrDR bat.context = true ∧ bat.byteXlate edge 0 = .ok 0x7FFE {} ∧
      bat.byteXlate edge 2 = .ok 0x8000 { bat := some 1 }) ∧
    -- (h)
    ((faulting (.ok 0x8000 { writeThrough := true })).byteXlate (zeroAccess (.dcbz 6 0) 0x8000) 0 =
      .ok 0x8000 { writeThrough := true } ∧ s.cfg.dcbzUncached = true ∧
      s.byteXlate (zeroAccess (.dcbz 4 0) 0x1000) 0 = .ok 0x1000 {}) ∧
    msrLE le.context = true ∧ msrLE s.context = false ∧ msrDR s.context = false := by
  decide

theorem test_meets_DsisrFields :
    meets bench [.lwz 3 4 8] (fun a => a.cls != .dcbz) = true ∧ namesBase (.lwzu 3 4 8) = true ∧
    meets bench [.lwzu 3 4 8] (fun a => a.cls != .multiple && a.cls != .string) = true ∧
    meets bench [.lmw 30 4 8, .lswi 6 4 8, .lswx 6 4 5]
      (fun a => !a.store && (a.cls == .multiple || a.cls == .string)) = true ∧
    (Instr.lwax 3 4 5).pair = some (.lwa 3 4 0) := by
  decide

/-- Each length in both byte orders, with data translation off and on. -/
theorem test_meets_OperandByteOrder :
    ([0x8000000000001000, 0x8000000000001001].all fun m : Word =>
      let s := start Config.atReset m 0x100
      !msrDR s.context && [1, 2, 4, 8].all fun n =>
        let a := intAccess (.lwz 3 4 0) false n 0x1008
        s.maskEa a.ea == a.ea && a.ea.toNat % a.len == 0) = true ∧
    ([0x8000000000003010, 0x8000000000003011].all fun m : Word =>
      let s : State := { faulting (.ok 0x4000 {}) with msr := m }
      msrDR s.context && [1, 2, 4, 8].all fun n =>
        let a := intAccess (.lwz 3 6 8) false n 0x8008
        (0x4008 : Word).toNat % a.len == 0 && (List.range a.len).all fun i =>
          s.byteXlate a i == .ok (0x4008 + BitVec.ofNat 64 i) {}) = true := by
  decide

/-- Each condition of a boundary, without those before it, and none. -/
theorem test_meets_AsynchronousExceptions :
    let s : State := start config32 0x9800 0x100
    (s.env = [] ∧ s.window = [] ∧ s.checkstop = false ∧ s.sresetReq = false ∧ s.mcheckReq = false ∧
      msrME s.msr = true ∧ msrME 0x8000 = false ∧ s.fex = false ∧ s.extSignal = false ∧
      s.decPending = false) ∧
    boundaryException (beginStep s) = none ∧
    (∀ t ∈ [{ s with sresetReq := true }, { s with mcheckReq := true }, { s with fex := true },
      { s with extSignal := true }, { s with decPending := true }],
      t.env = [] ∧ t.checkstop = false ∧ (boundaryException (beginStep t)).isSome = true) ∧
    (msrFE0 s.msr || msrFE1 s.msr) = true ∧ msrEE s.msr = true := by
  decide

/-- A step that closes an open window, and clears `EE`, with an exception pending under the MSR. -/
theorem test_meets_AsynchronousExceptions_window :
    let s : State := { start { config32 with hasPow := false } 0x9000 0x100 with
      window := [0x1000], sresetReq := true }
    s.env = [] ∧ s.checkstop = false ∧ s.window ≠ [] ∧ asleep { s with taken := false } = false ∧
    (boundaryExceptionIn s.msr { s with taken := false }).isSome = true ∧
    msrEE s.msr = true ∧ ∃ t, step s = .next t ∧ (t.window == [] && !msrEE t.msr) = true :=
  ⟨rfl, rfl, by decide, by decide, by decide, by decide,
    after_next (p := fun t => t.window == [] && !msrEE t.msr) (by decide)⟩

/-- A state about to run `sync` in an open window, with a floating-point exception pending that the MSR
enables and the value before it did not. -/
def synchronizing : State :=
  { (start { config32 with hasPow := false } 0x1800 0x100).withFetchWord 32 0x7C0004AC with
    window := [0x1000], fex := true }

/-- A bit that the MSR 0x1800 and the value 0x1000 agree on is in force as it is. -/
theorem synchronizing_bit {k : Nat} (hk : k < 64) {v : Bool} (h : (0x1800 : Word).getMsbD k = v)
    (h' : (0x1000 : Word).getMsbD k = v) : synchronizing.context.getMsbD k = v :=
  mixContext_agree _ hk _ _ h fun _ hw => (List.mem_singleton.1 hw) ▸ h'

theorem synchronizing_fetch : (beginInstruction { synchronizing with taken := false }).fetch =
    .word 0x7C0004AC := by
  have hi : msrIR (beginInstruction { synchronizing with taken := false }).context = false :=
    synchronizing_bit (by decide) (by decide) (by decide)
  have hl : msrLE (beginInstruction { synchronizing with taken := false }).context = false :=
    synchronizing_bit (by decide) (by decide) (by decide)
  simp only [State.fetch, State.translate, State.wordAtPa, State.fetchBytes, State.byteAddress,
    State.orderBytes, hi, hl, Bool.false_eq_true, if_false]
  decide
/-- A step that synchronizes in an open window with a floating-point exception pending under the MSR. -/
theorem test_meets_AsynchronousExceptions_sync :
    let s := synchronizing
    let b : State := { s with taken := false }
    s.env = [] ∧ s.checkstop = false ∧ s.window ≠ [] ∧ asleep b = false ∧
    (boundaryExceptionIn s.msr b).isSome = true ∧
    (s.fex && (msrFE0 s.msr || msrFE1 s.msr)) = true ∧
    (beginInstruction b).fetch = .word 0x7C0004AC ∧
    decode (bytesOfWord 0x7C0004AC) = .ok (.sync, []) ∧ ∃ t, step s = .next t := by
  refine ⟨by decide, by decide, by decide, by decide, by decide, by decide, synchronizing_fetch, by decide, ?_⟩
  cases h : boundaryException (beginStep synchronizing) with
  | some u => exact ⟨advance u, by unfold step; simp only [h]; rfl⟩
  | none =>
    obtain ⟨u, hu⟩ : ∃ u, runInstruction (beginInstruction (beginStep synchronizing)) = .next u :=
      ⟨_, by rw [runInstruction, show (beginInstruction (beginStep synchronizing)).fetch = _ from
        synchronizing_fetch]; rfl⟩
    exact ⟨advance (settle (beginStep synchronizing) u), by unfold step; simp only [h, hu]; rfl⟩

theorem test_meets_DecrementerRequest :
    let s : State := start Config.atReset 0x8000000000009000 0x100
    msrPR s.context = false ∧ noHardReset s ∧
    (∃ t, step { s with dec := 0 } = .next t ∧ (t.dec.getMsbD 0) = true) ∧
    ∃ t, step { s with decPending := true } = .next t ∧ t.taken = true := by
  refine ⟨by decide, by unfold noHardReset; decide, ?_, ?_⟩
  · exact after_next (p := fun t => t.dec.getMsbD 0) (by decide)
  · exact after_next (p := fun t => t.taken) (by decide)

/-- Each answer of the translation of a fetch; of the last, with no memory behind it. -/
theorem test_meets_FetchFailureTaken :
    ∀ r ∈ [XlateResult.segmentFail, .noTranslation, .directStoreError 0, .protection {},
        .protection { guarded := true }, .ok 0 { noExecute := true }, .ok 0 {}],
      let s : State := start { config32 with
        memMap := []
        xlate := [{ kinds := [.fetch], base := 0, size := 2 ^ 32, result := r }] } 0x1020 0
      s.env = [] ∧ s.window = [] ∧ s.checkstop = false ∧ boundaryException (beginStep s) = none ∧
      asleep (beginStep s) = false ∧ msrIR s.msr = true ∧
      translateBy s.cfg.xlate .fetch (s.maskEa s.nia) s.msr = r ∧ memoryAt s.cfg 0 = false := by
  decide

/-- An untranslated fetch without memory, with `ME` = 1 and 0, on a platform of each kind. -/
theorem test_meets_FetchFailureTaken_memory :
    let c : Config := { config32 with memMap := [] }
    (∀ s ∈ [start c 0x1000 0, start c 0 0, start { c with mcheckOnAbsent := false } 0 0],
      s.env = [] ∧ s.window = [] ∧ s.checkstop = false ∧ boundaryException (beginStep s) = none ∧
      asleep (beginStep s) = false ∧ msrIR s.msr = false ∧ memoryAt s.cfg 0 = false) ∧
    c.mcheckOnAbsent = true ∧ msrME 0x1000 = true ∧ msrME 0 = false := by
  decide

theorem test_meets_SingleStepTrace :
    let s : State := { start Config.atReset 0x8000000000001900 0x100 with fex := true }
    bench.cfg.hasTrace = true ∧ Instr.sync ≠ .rfi ∧ Instr.sync ≠ .rfid ∧ bench.taken = false ∧
    bench.checkstop = false ∧ config32.hasTrace = false ∧
    (s.fex && (msrFE0 s.msr || msrFE1 s.msr)) = true ∧ s.taken = false ∧ s.checkstop = false ∧
    Instr.mtmsr 3 ≠ .rfi ∧ Instr.mtmsr 3 ≠ .rfid ∧ bench.fex = false := by decide

theorem test_meets_CheckstopIsStuck :
    let s : State := { bench with checkstop := true, env := [[.setFex true]] }
    s.checkstop = true ∧ noHardReset s := ⟨by decide, by unfold noHardReset; decide⟩

theorem test_meets_ReducedPower :
    let s : State := start Config.atReset 0x8000000000041000 0x100
    s.env = [] ∧ s.checkstop = false ∧ boundaryException (beginStep s) = none ∧ s.cfg.hasPow = true ∧
    msrPOW s.context = true ∧ s.cfg.tick = 1 := by
  decide

theorem test_meets_DecrementerCounts :
    let s : State := { bench with cfg := { Config.atReset with tick := 3 } }
    bench.checkstop = false ∧ bench.cfg.tick ≤ bench.tickCount + 1 ∧ s.checkstop = false ∧
    ¬s.cfg.tick ≤ s.tickCount + 1 := by
  decide

/-- Both widths, for the statements whose clauses tell them apart. -/
theorem test_meets_EntryMsrBits : Config.atReset.is64 = true ∧ config32.is64 = false := by decide

/-- A schedule with every move, and none. -/
theorem test_meets_EnvironmentMoves :
    let s : State := { bench with env := [[.setExternal true, .requestSystemReset true,
      .requestMachineCheck false, .setFex true, .hardReset]] }
    bench.env = [] ∧ s.env.length = 1 ∧ bench.cfg.is64 = true := by decide

theorem test_meets_VectorTable : bench.window = [] ∧ msrIP 0x40 = true ∧ msrIP bench.msr = false := by decide

/-- One access of each form, with a base and with field 0. -/
theorem test_meets_EffectiveAddresses :
    meets bench [.lwz 3 4 8, .lwz 3 0 8, .ld 3 4 2, .std 3 0 2, .lwzx 3 4 5, .stwx 3 0 5, .lswi 3 4 8,
      .stswi 3 0 8, .dcbz 4 5] (fun _ => true) = true := by decide

theorem test_meets_EntryEffect : ∀ dsisr dar,
    Exc.decrementer ≠ .dsi dsisr dar ∧ Exc.decrementer ≠ .alignment dsisr dar := by
  intro dsisr dar
  exact ⟨Exc.noConfusion, Exc.noConfusion⟩

end Sys2Proof.Tests
end

section
/-! Proofs about the state (10_state.md): the invariant of the machine and the decrementer request. Both are
derived from one account of what an instruction does: a chain of elementary effects on the state. -/

namespace Sys2Proof.Machine

/-! ## Values that fit the implementation's registers -/

theorem fits_iff {c : Config} {v : Word} : fits c v = true ↔ c.is64 = true ∨ low32 v = v := by
  simp only [fits, truncXlen, beq_iff_eq]
  split <;> simp_all

theorem fits_of_is64 {c : Config} (h : c.is64 = true) (v : Word) : fits c v = true :=
  fits_iff.2 (.inl h)

@[simp] theorem fits_low32 (c : Config) (v : Word) : fits c (low32 v) = true :=
  fits_iff.2 (.inr (low32_low32 v))

theorem fits_and {c : Config} {v : Word} (h : fits c v = true) (m : Word) : fits c (v &&& m) = true :=
  fits_iff.2 <| (fits_iff.1 h).imp_right fun hv => by
    rw [low32, and_swap]
    exact congrArg (· &&& m) hv

/-- What a mask that fits selects fits. -/
theorem fits_and_mask {c : Config} (v : Word) {m : Word} (h : fits c m = true) : fits c (v &&& m) = true :=
  BitVec.and_comm m v ▸ fits_and h v

theorem fits_or {c : Config} {v w : Word} (hv : fits c v = true) (hw : fits c w = true) :
    fits c (v ||| w) = true := by
  rcases fits_iff.1 hv with h | hv
  · exact fits_of_is64 h _
  · rcases fits_iff.1 hw with h | hw
    · exact fits_of_is64 h _
    · refine fits_iff.2 (.inr ?_)
      rw [low32, BitVec.and_or_distrib_right]
      exact congrArg₂ (· ||| ·) hv hw

/-- A constant without high-order bits fits every implementation. -/
theorem fits_small (c : Config) {v : Word} (h : low32 v = v) : fits c v = true := fits_iff.2 (.inr h)

/-! ## Instruction addresses -/

theorem wordAligned_iff {a : Word} : wordAligned a = true ↔ a.toNat % 4 = 0 := by
  have h3 : a.toNat &&& 3 = a.toNat % 4 := Nat.and_two_pow_sub_one_eq_mod a.toNat 2
  simp [wordAligned, ← BitVec.toNat_inj, h3]

theorem wordAligned_add {a b : Word} (ha : wordAligned a = true) (hb : wordAligned b = true) :
    wordAligned (a + b) = true := by
  rw [wordAligned_iff] at ha hb ⊢
  rw [BitVec.toNat_add]
  omega

theorem wordAligned_cleared (a : Word) : wordAligned (a &&& ~~~3) = true := by
  simp [wordAligned, BitVec.and_assoc]

@[simp] theorem wordAligned_maskEa (s : State) (a : Word) : wordAligned (s.maskEa a) = wordAligned a :=
  wordAligned_addressIn _ _ _

/-- The offsets of the twelve vectors (20 R62). -/
def vectorOffsets : List Word :=
  [0x100, 0x200, 0x300, 0x400, 0x500, 0x600, 0x700, 0x800, 0x900, 0xC00, 0xD00, 0xE00]

theorem offset_mem (e : Exc) : e.offset ∈ vectorOffsets := by
  cases e <;> simp [Exc.offset, vectorOffsets]

theorem wordAligned_offset (e : Exc) : wordAligned e.offset = true :=
  List.all_eq_true.1 (by decide : vectorOffsets.all wordAligned = true) _ (offset_mem e)

theorem wordAligned_vectorBase (c : Config) (ip : Bool) : wordAligned (vectorBase c ip) = true := by
  unfold vectorBase
  split_ifs <;> rfl

/-- A vector address (20 R61, R62) is an instruction address. -/
theorem wordAligned_vector (c : Config) (ip : Bool) (e : Exc) :
    wordAligned (vectorBase c ip + e.offset) = true :=
  wordAligned_add (wordAligned_vectorBase c ip) (wordAligned_offset e)

theorem fits_vector (c : Config) (ip : Bool) (e : Exc) : fits c (vectorBase c ip + e.offset) = true := by
  cases h64 : c.is64
  · have hbase : vectorBase c ip ∈ [(0 : Word), 0xFFF00000] := by cases ip <;> simp [vectorBase, h64]
    have hlow : ([(0 : Word), 0xFFF00000].all fun base =>
        vectorOffsets.all fun off => low32 (base + off) == base + off) = true := by decide
    simp only [List.all_eq_true, beq_iff_eq] at hlow
    exact fits_small c (hlow _ hbase _ (offset_mem e))
  · exact fits_of_is64 h64 _

/-! ## What entry, return and reset put in the status registers fits -/

theorem fits_entryMsr {c : Config} {m : Word} (h : fits c m = true) (e : Exc) :
    fits c (entryMsr c e m) = true := by
  cases h64 : c.is64
  · have hcommon : fits c ((m &&& ~~~(0x0004EF33 : Word)) ||| ((m >>> 16) &&& 1)) = true :=
      fits_or (fits_and h _) (fits_and_mask _ (fits_small c (by decide)))
    simp only [entryMsr, h64, Bool.false_eq_true, if_false]
    cases e with
    | machineCheck _ => exact fits_and hcommon _
    | _ => exact hcommon
  · exact fits_of_is64 h64 _

theorem fits_srr1Info (c : Config) (e : Exc) : fits c e.srr1Info = true :=
  srr1Info_and e ▸ fits_and_mask _ (fits_small c (by decide))

theorem fits_saveImage {c : Config} {m : Word} (h : fits c m = true) (e : Exc) :
    fits c (saveImage c e m) = true := by
  have himage (range : Word) : fits c ((m &&& range) ||| e.srr1Info) = true :=
    fits_or (fits_and h _) (fits_srr1Info c e)
  unfold saveImage
  cases e with
  | systemReset lost => cases lost with
    | false => exact himage _
    | true => exact fits_and (himage _) _
  | machineCheck lost => cases lost with
    | false => exact himage _
    | true => exact fits_and (himage _) _
  | _ => exact himage _

theorem fits_restoredMsr {c : Config} {msr srr1 : Word} (hm : fits c msr = true)
    (hs : fits c srr1 = true) (mask : Word) : fits c (restoredMsr mask msr srr1) = true :=
  fits_or (fits_and hm _) (fits_and hs _)

theorem fits_hardResetMsr (c : Config) (free : Word) : fits c (hardResetMsr c free) = true := by
  cases h64 : c.is64
  · simp [hardResetMsr, h64]
  · exact fits_of_is64 h64 _

/-! ## The address a DSI reports -/

@[simp] theorem fits_byteEa (s : State) (a : Access) (i : Nat) : fits s.cfg (s.byteEa a i) = true :=
  fits_maskEa _ _

theorem fits_faultDar {s : State} {a : Access} (h : fits s.cfg a.ea = true) (bits : BitVec 32)
    (brk : Bool) (first : Nat) : fits s.cfg (s.faultDar a bits brk first) = true := by
  unfold State.faultDar
  split
  · split <;> exact fits_and h _
  · split
    · exact h
    · exact fits_byteEa _ _ _

theorem fits_dataFault {s : State} {a : Access} {f : DataFault} (h : fits s.cfg a.ea = true)
    (hf : s.dataFault a = some f) : fits s.cfg f.dar = true := by
  simp only [State.dataFault, Option.ite_none_left_eq_some, Option.some.injEq] at hf
  obtain ⟨-, rfl⟩ := hf
  exact fits_faultDar h _ _ _

/-! ## The invariant, field by field -/

/-- What the invariant says of each field of the state it speaks of. -/
structure Bounded (s : State) : Prop where
  mem : s.mem.wf = true
  niaAligned : wordAligned s.nia = true
  ciaAligned : wordAligned s.cia = true
  gpr : ∀ r, fits s.cfg (s.readGpr r) = true
  nia : fits s.cfg s.nia = true
  cia : fits s.cfg s.cia = true
  msr : fits s.cfg s.msr = true
  srr0 : fits s.cfg s.srr0 = true
  srr1 : fits s.cfg s.srr1 = true
  dar : fits s.cfg s.dar = true
  lr : fits s.cfg s.lr = true
  ctr : fits s.cfg s.ctr = true
  dabr : fits s.cfg s.dabr = true
  window : ∀ w ∈ s.window, fits s.cfg w = true
  reservation : ∀ ea ∈ s.reservation, fits s.cfg ea = true

theorem forall_gpr_iff {s : State} {P : Word → Prop} :
    (∀ v ∈ s.gpr.toList, P v) ↔ ∀ r, P (s.readGpr r) := by
  constructor
  · exact fun h r => h _ (by simp [State.readGpr])
  · intro h v hv
    obtain ⟨i, hi, rfl⟩ := List.getElem_of_mem hv
    have hlt : i < 32 := by simpa using hi
    have := h (BitVec.ofNat 5 i)
    simpa [State.readGpr, Nat.mod_eq_of_lt hlt] using this

theorem inv_iff {s : State} : Inv s ↔ Bounded s := by
  simp only [Inv, registersFit, Bool.and_eq_true, List.all_eq_true, forall_gpr_iff, List.forall_mem_cons,
    Option.mem_toList]
  constructor
  · rintro ⟨hmem, hniaA, hciaA, ⟨⟨hgpr, hnia, hcia, hmsr, hsrr0, hsrr1, hdar, hlr, hctr, hdabr,
      -⟩, hw⟩, hr⟩
    exact ⟨hmem, hniaA, hciaA, hgpr, hnia, hcia, hmsr, hsrr0, hsrr1, hdar, hlr, hctr, hdabr, hw, hr⟩
  · rintro ⟨hmem, hniaA, hciaA, hgpr, hnia, hcia, hmsr, hsrr0, hsrr1, hdar, hlr, hctr, hdabr, hw, hr⟩
    exact ⟨hmem, hniaA, hciaA, ⟨⟨hgpr, hnia, hcia, hmsr, hsrr0, hsrr1, hdar, hlr, hctr, hdabr,
      nofun⟩, hw⟩, hr⟩

namespace Bounded
variable {s : State} (h : Bounded s)
include h

theorem setGpr (r : Reg) (v : Word) : Bounded (s.setGpr r v) :=
  { h with
    gpr := fun q => by
      by_cases hq : q = r
      · subst hq
        rw [State.readGpr_setGpr_same]
        exact fits_truncXlen _ _
      · rw [State.readGpr_setGpr_other s v hq]
        exact h.gpr q }

theorem writeSpr (r : Spr) (v : Word) : Bounded (s.writeSpr r v) := by
  cases r with
  | dar => exact { h with dar := fits_truncXlen _ _ }
  | srr0 => exact { h with srr0 := fits_truncXlen _ _ }
  | srr1 => exact { h with srr1 := fits_truncXlen _ _ }
  | dabr => exact { h with dabr := fits_truncXlen _ _ }
  | xer | dsisr | dec | ear => exact { h with }

theorem clobber (translated : Bool) (n : Nat) : Bounded (s.clobber translated n) := by
  unfold State.clobber
  split
  · exact { h with srr0 := fits_truncXlen _ _, srr1 := fits_truncXlen _ _ }
  · exact h

theorem complete : Bounded s.complete :=
  { h with
    nia := fits_maskEa s _
    niaAligned := (wordAligned_maskEa s _).trans (wordAligned_add h.ciaAligned (b := 4) rfl) }

theorem writeMsr {v : Word} (hv : fits s.cfg v = true) : Bounded (s.writeMsr v) :=
  { h with
    msr := hv
    window := by
      unfold State.writeMsr
      dsimp only
      split
      · exact List.forall_mem_cons.2 ⟨h.msr, h.window⟩
      · exact nofun }

theorem returnFrom (mask : Word) : Bounded (returnFrom mask s) :=
  { h with
    msr := fits_restoredMsr h.msr h.srr1 mask
    nia := fits_addressIn _ _ _
    niaAligned := (wordAligned_addressIn _ _ _).trans (wordAligned_cleared _)
    window := nofun }

theorem takeException (e : Exc) (addr : Word) (he : ∀ p ∈ e.fault?, fits s.cfg p.2 = true) :
    Bounded (takeException e addr s) :=
  { h with
    msr := fits_entryMsr h.msr e
    srr0 := fits_addressIn _ _ _
    srr1 := fits_saveImage h.msr e
    dar := by
      rw [takeException_dar]
      cases hf : e.fault? with
      | none => exact h.dar
      | some p => exact he p hf
    nia := fits_vector _ _ e
    niaAligned := wordAligned_vector _ _ e
    window := nofun }

theorem boundedlyUndefined : Bounded (boundedlyUndefined s) := by
  have hgpr (r : Reg) : fits s.cfg ((Machine.boundedlyUndefined s).readGpr r) = true := by
    simp [State.readGpr, Machine.boundedlyUndefined]
  have hres : ∀ ea ∈ if s.freeBit .undefMisc 2 then some (s.maskEa (s.freeWord .undefMisc 3)) else none,
      fits s.cfg ea = true := by
    simp
  unfold Machine.boundedlyUndefined at hgpr ⊢
  exact { h with mem := writeBytes_wf h.mem _, gpr := hgpr, reservation := hres }

/-- What a hard reset states (10 R55) fits, and so do the free values it leaves, whatever the registers held. -/
theorem hardReset : Bounded (hardReset s) := by
  have hgpr (r : Reg) : fits s.cfg ((Machine.hardReset s).readGpr r) = true := by
    simp [State.readGpr, Machine.hardReset]
  have hres : ∀ ea ∈ if s.freeBit .resetMisc 15 then some (truncXlen s.cfg (s.freeWord .resetMisc 16))
      else none, fits s.cfg ea = true := by
    simp
  unfold Machine.hardReset at hgpr ⊢
  exact
    { mem := writeBytes_wf h.mem _
      niaAligned := wordAligned_vector _ _ (.systemReset false)
      ciaAligned := wordAligned_cleared _
      gpr := hgpr
      nia := fits_vector _ _ (.systemReset false)
      cia := fits_and (fits_truncXlen _ _) _
      msr := fits_hardResetMsr _ _
      srr0 := fits_truncXlen _ _
      srr1 := fits_truncXlen _ _
      dar := fits_truncXlen _ _
      lr := fits_truncXlen _ _
      ctr := fits_truncXlen _ _
      dabr := fits_truncXlen _ _
      window := nofun
      reservation := hres }

theorem applyMove (m : EnvMove) : Bounded (applyMove s m) := by
  cases m with
  | hardReset => exact h.hardReset
  | setExternal | requestSystemReset | requestMachineCheck | setFex => exact { h with }

theorem beginInstruction : Bounded (beginInstruction s) :=
  { h with
    cia := fits_maskEa s _
    ciaAligned := (wordAligned_maskEa s _).trans h.niaAligned }

theorem advance : Bounded (advance s) := by
  rw [advance_frame]
  exact { h with }

end Bounded

/-! ## The elementary effects of an instruction -/

/-- One elementary change of the state, of those that instructions are made of. The DAR and the reservation take
addresses that fit, and the MSR, where an instruction moves a register to it, a value that fits if the
invariant holds; the other operations see to it themselves. No instruction takes the decrementer exception, which is one of the
instruction boundary (60 R263). -/
inductive Effect : State → State → Prop where
  | gpr (s : State) (r : Reg) (v : Word) : Effect s (s.setGpr r v)
  | fpr (s : State) (r : FReg) (v : Word) : Effect s (s.setFpr r v)
  | cr0 (s : State) (v : BitVec 4) : Effect s (s.setCr0 v)
  | spr (s : State) (r : Spr) (v : Word) : Effect s (s.writeSpr r v)
  | memory (s : State) (l : List (Word × Byte)) : Effect s { s with mem := writeBytes s.mem l }
  | reservation (s : State) (r : Option Word) (h : ∀ ea ∈ r, fits s.cfg ea = true) :
      Effect s { s with reservation := r }
  | device (s : State) (w : DeviceWord) : Effect s { s with extOut := w :: s.extOut }
  | undefined (s : State) : Effect s (boundedlyUndefined s)
  | clobber (s : State) (translated : Bool) (n : Nat) : Effect s (s.clobber translated n)
  | complete (s : State) : Effect s s.complete
  | msr (s : State) (v : Word) (h : Inv s → fits s.cfg v = true) : Effect s (s.writeMsr v)
  | synchronize (s : State) : Effect s { s with window := [] }
  | restore (s : State) (mask : Word) : Effect s (returnFrom mask s)
  | exception (s : State) (e : Exc) (addr : Word) (hd : e ≠ .decrementer)
      (h : ∀ p ∈ e.fault?, fits s.cfg p.2 = true) : Effect s (takeException e addr s)
  | checkstop (s : State) : Effect s { s with checkstop := true, mcheckReq := false }

/-- A chain of elementary effects. -/
abbrev Effects : State → State → Prop := Relation.ReflTransGen Effect

/-- The next state a result answers, if any, is reached by elementary effects. -/
def Leads (s : State) (r : Result) : Prop := ∀ t, r = .next t → Effects s t

theorem Effect.cfg_eq {s t : State} (h : Effect s t) : t.cfg = s.cfg := by
  cases h with
  | spr r v => cases r <;> rfl
  | clobber b n => exact State.clobber_cfg _ _ _
  | undefined => rw [boundedlyUndefined]
  | gpr | fpr | cr0 | memory | reservation | device | complete | msr | synchronize | restore | exception
  | checkstop => rfl

/-- What every elementary effect keeps, a chain of them keeps. -/
theorem Effects.keeps {P : State → Prop} (hP : ∀ s t, Effect s t → P s → P t) {s t : State}
    (h : Effects s t) (hs : P s) : P t := by
  induction h with
  | refl => exact hs
  | tail _ he ih => exact hP _ _ he ih

theorem Effects.cfg_eq {s t : State} (h : Effects s t) : t.cfg = s.cfg :=
  h.keeps (P := fun u => u.cfg = s.cfg) (fun _ _ he hs => he.cfg_eq.trans hs) rfl

theorem Leads.next {s t : State} (h : Effects s t) : Leads s (.next t) := by
  rintro _ ⟨⟩
  exact h

theorem Leads.fault (s : State) (f : Fault) : Leads s (.fault f) := by
  rintro _ ⟨⟩

/-- An exception that reports no address is taken, not at an instruction boundary. -/
theorem Effects.exception {s u : State} (h : Effects s u) {e : Exc} (hd : e ≠ .decrementer)
    (hf : e.fault? = none) (addr : Word) : Effects s (takeException e addr u) :=
  h.tail (.exception u e addr hd (by simp [hf]))

/-! ### The storage procedure -/

theorem raise_leads {s u : State} (h : Effects s u) {e : Exc} (hd : e ≠ .decrementer)
    (hf : e.fault? = none) : Leads s (raise e u) :=
  .next (h.exception hd hf u.cia)

theorem admit_leads {i : Instr} {s : State} {k : State → Result} (hk : Leads s (k s)) :
    Leads s (whenAdmitted i s k) := by
  rcases admit_cases i s k with ⟨e, he, h⟩ | h
  · have hplain : ∀ e ∈ admissionException, e ≠ .decrementer ∧ e.fault? = none := by decide
    exact h ▸ raise_leads .refl (hplain e he).1 (hplain e he).2
  · exact h ▸ hk

theorem finish_effects {s u : State} (h : Effects s u) : Effects s u.finish :=
  (h.tail (.clobber u _ _)).tail (.complete _)

theorem busError_leads {s : State} {part : State → State} (h : Effects s (part s)) :
    Leads s (busError part s) := by
  rcases busError_cases part s with hb | hb | hb <;> rw [hb]
  · exact .fault s _
  · exact .next (h.exception (by nofun) rfl _)
  · exact .next (h.tail (.checkstop _))

/-- The storage procedure adds to its partial execution and its operation the effects of an exception or of
completion. -/
theorem perform_leads {s : State} {a : Access} {part : Nat → State → State} {body : State → State}
    (ha : fits s.cfg a.ea = true) (hp : ∀ n, Effects s (part n s)) (hb : Effects s (body s)) :
    Leads s (perform a part body s) := by
  rcases perform_cases a part body s with
    ⟨-, h⟩ | ⟨-, h⟩ | ⟨-, f, hf, h⟩ | ⟨-, -, n, -, h⟩ | ⟨-, h⟩ <;> rw [h]
  · exact .next (.tail (.single (.undefined s)) (.complete (boundedlyUndefined s)))
  · exact .next ((hp _).tail (.exception _ (.alignment _ a.ea) _ nofun
      (by simpa [Exc.fault?, (hp _).cfg_eq] using ha)))
  · exact .next ((hp _).tail (.exception _ (.dsi f.dsisr f.dar) _ nofun
      (by simpa [Exc.fault?, (hp _).cfg_eq] using fits_dataFault ha hf)))
  · exact busError_leads (hp n)
  · exact .next (finish_effects hb)

/-! ### The operations of the storage instructions -/

theorem updateBase_effects {s u : State} (h : Effects s u) (base : Option Reg) (ea : Word) :
    Effects s (u.updateBase base ea) := by
  cases base with
  | none => exact h
  | some r => exact h.tail (.gpr u r ea)

theorem storeBytes_effects (a : Access) (data : List Byte) (s : State) : Effects s (storeBytes a data s) :=
  .single (.memory s _)

theorem partialStore_effects (a : Access) (data : List Byte) (n : Nat) (s : State) :
    Effects s (partialStore a data n s) := .single (.memory s _)

theorem partialNone_effects (n : Nat) (s : State) : Effects s (partialNone n s) := .refl

theorem partialFloat_effects (r : FReg) (n : Nat) (s : State) : Effects s (partialFloat r n s) := by
  unfold partialFloat
  split
  · exact .single (.fpr s _ _)
  · exact .refl

theorem loadWords_effects {s t : State} (u : State) (a : Access) (rd : Reg) (keep : Nat → Bool) (n : Nat)
    (h : Effects s t) : Effects s (loadWords u a rd keep n t) := by
  induction n with
  | zero => exact h
  | succ n ih =>
    simp only [loadWords]
    split
    · exact ih.tail (.gpr _ _ _)
    · exact ih

theorem partialWords_effects (a : Access) (rd : Reg) (n : Nat) (s : State) :
    Effects s (partialWords a rd n s) := loadWords_effects _ _ _ _ _ .refl

theorem partialCond_effects (a : Access) (data : List Byte) (n : Nat) (s : State) :
    Effects s (partialCond a data n s) := by
  unfold partialCond
  dsimp only
  split
  · exact (partialStore_effects a data n s).tail (.cr0 _ _)
  · exact .single (.cr0 _ _)

theorem condStore_effects (a : Access) (data : List Byte) (s : State) : Effects s (condStore a data s) := by
  have hcr (u : State) (h : Effects s u) (v : BitVec 4) :
      Effects s { u.setCr0 v with reservation := none } :=
    (h.tail (.cr0 u v)).tail (.reservation _ none nofun)
  unfold condStore
  dsimp only
  split
  · exact hcr _ (storeBytes_effects a data s) _
  · exact hcr _ .refl _

theorem partialSend_effects (a : Access) (v : Word) (n : Nat) (s : State) :
    Effects s (partialSend a v n s) := by
  unfold partialSend
  extract_lets moved byte sent
  split
  · exact .refl
  · exact .single (.device s _)

/-! ### The storage instructions -/

section
variable {s : State} {ea : Word} (he : fits s.cfg ea = true)
include he

theorem loadInt_leads {i : Instr} {n : Nat} {conv : Word → Word} {rd : Reg} {base : Option Reg} :
    Leads s (loadInt i n conv rd base ea s) :=
  admit_leads (perform_leads he (partialNone_effects · s) (updateBase_effects (.single (.gpr s _ _)) _ _))

theorem storeInt_leads {i : Instr} {n : Nat} {v : Word} {base : Option Reg} :
    Leads s (storeInt i n v base ea s) :=
  admit_leads (perform_leads he (partialStore_effects _ _ · s)
    (updateBase_effects (storeBytes_effects _ _ s) _ _))

theorem loadFloat_leads {i : Instr} {n : Nat} {conv : Word → Word} {frd : FReg} {base : Option Reg} :
    Leads s (loadFloat i n conv frd base ea s) :=
  admit_leads (perform_leads he (partialFloat_effects _ · s)
    (updateBase_effects (.single (.fpr s _ _)) _ _))

theorem storeFloat_leads {i : Instr} {n : Nat} {v : Word} {base : Option Reg} :
    Leads s (storeFloat i n v base ea s) :=
  admit_leads (perform_leads he (partialStore_effects _ _ · s)
    (updateBase_effects (storeBytes_effects _ _ s) _ _))

theorem loadMultiple_leads {i : Instr} {rd : Reg} : Leads s (loadMultiple i rd ea s) :=
  admit_leads (perform_leads he (partialWords_effects _ _ · s) (loadWords_effects _ _ _ _ _ .refl))

theorem storeMultiple_leads {i : Instr} {rs : Reg} : Leads s (storeMultiple i rs ea s) :=
  admit_leads (perform_leads he (partialStore_effects _ _ · s) (storeBytes_effects _ _ s))

theorem loadString_leads {i : Instr} {rd : Reg} {n : Nat} : Leads s (loadString i rd n ea s) := by
  refine admit_leads ?_
  split
  · exact .next (.single (.complete s))
  · exact perform_leads he (partialWords_effects _ _ · s) (loadWords_effects _ _ _ _ _ .refl)

theorem storeString_leads {i : Instr} {rs : Reg} {n : Nat} : Leads s (storeString i rs n ea s) := by
  refine admit_leads ?_
  split
  · exact .next (.single (.complete s))
  · exact perform_leads he (partialStore_effects _ _ · s) (storeBytes_effects _ _ s)

theorem loadReserve_leads {i : Instr} {n : Nat} {rd : Reg} : Leads s (loadReserve i n rd ea s) :=
  admit_leads (perform_leads he (partialNone_effects · s)
    (.tail (.single (.gpr s rd _)) (.reservation _ (some ea) fun _ h => by cases h; exact he)))

theorem storeConditional_leads {i : Instr} {n : Nat} {v : Word} :
    Leads s (storeConditional i n v ea s) := by
  refine admit_leads ?_
  dsimp only
  split
  · exact .next (finish_effects (condStore_effects _ _ s))
  · exact perform_leads he (partialCond_effects _ _ · s) (condStore_effects _ _ s)

theorem externalIn_leads {i : Instr} {rd : Reg} : Leads s (externalIn i rd ea s) :=
  admit_leads (perform_leads he (partialNone_effects · s) (.single (.gpr s _ _)))

theorem externalOut_leads {i : Instr} {v : Word} : Leads s (externalOut i v ea s) :=
  admit_leads (perform_leads he (partialSend_effects _ _ · s) (.single (.device s _)))

theorem zeroBlock_leads {i : Instr} : Leads s (zeroBlock i ea s) :=
  admit_leads (perform_leads he (fun _ => .single (.memory s _)) (.single (.memory s _)))

theorem cacheOp_leads {i : Instr} {store : Bool} : Leads s (cacheOp i store ea s) :=
  admit_leads (perform_leads he (partialNone_effects · s) .refl)

end

/-! ### The system instructions -/

theorem trapOn_leads {i : Instr} {cond : TrapTo} {x y : Word} {s : State} :
    Leads s (trapOn i cond x y s) := by
  refine admit_leads ?_
  split
  · exact raise_leads .refl (by nofun) rfl
  · exact .next (.single (.complete s))

theorem withSpr_leads {i : Instr} {n : SprNum} {s : State} {k : Spr → State → Result}
    (hk : ∀ r, Leads s (k r s)) : Leads s (withSpr i n s k) := by
  refine admit_leads ?_
  split
  · exact raise_leads .refl (by nofun) rfl
  · split
    · exact hk _
    · exact raise_leads .refl (by nofun) rfl

theorem execMtmsr_leads (rs : Reg) (s : State) : Leads s (execMtmsr rs s) :=
  admit_leads (.next (.tail (.single (.complete s)) (.msr s.complete _ fun h =>
    fits_or (fits_and (inv_iff.1 h).msr _) (fits_low32 _ _))))

theorem execMtmsrd_leads (rs : Reg) (s : State) : Leads s (execMtmsrd rs s) :=
  admit_leads (.next (.tail (.single (.complete s)) (.msr s.complete _ fun h =>
    (inv_iff.1 h).gpr rs)))

/-! ### Every instruction -/

/-- What an instruction does, in any state, is a chain of elementary effects. -/
theorem exec_leads (i : Instr) (s : State) : Leads s (exec i s) := by
  have he (a : Word) : fits s.cfg (s.maskEa a) = true := fits_maskEa s a
  cases i
  all_goals rw [exec]
  case tdi | twi | tw | td => exact trapOn_leads
  case sc => exact admit_leads (.next (Effects.exception .refl (by nofun) rfl _))
  case rfi | rfid => exact admit_leads (.next (.single (.restore s _)))
  case sync => exact admit_leads (.next (.single (.complete s)))
  case isync => exact admit_leads (.next (.tail (.single (.complete s)) (.synchronize _)))
  case mtmsr rs => exact execMtmsr_leads rs s
  case mtmsrd rs => exact execMtmsrd_leads rs s
  case mfmsr => exact admit_leads (.next (.tail (.single (.gpr s _ _)) (.complete _)))
  case mfspr => exact withSpr_leads fun r => .next (.tail (.single (.gpr s _ _)) (.complete _))
  case mtspr => exact withSpr_leads fun r => .next (.tail (.single (.spr s r _)) (.complete _))
  case lwz | lwzu | lhz | lhzu | lha | lhau | ld | ldu | lwa | ldx | ldux | lwax | lwaux | lwbrx | lhbrx | lwzx
      | lwzux | lhzx | lhzux | lhax | lhaux | lbz | lbzu | lbzx | lbzux =>
    exact loadInt_leads (he _)
  case stw | stwu | sth | sthu | std | stdu | stdx | stdux | stwbrx | sthbrx | stwx | stwux | sthx | sthux | stb
      | stbu | stbx | stbux =>
    exact storeInt_leads (he _)
  case lfs | lfsu | lfd | lfdu | lfsx | lfsux | lfdx | lfdux => exact loadFloat_leads (he _)
  case stfs | stfsu | stfd | stfdu | stfsx | stfsux | stfdx | stfdux | stfiwx => exact storeFloat_leads (he _)
  case lmw => exact loadMultiple_leads (he _)
  case stmw => exact storeMultiple_leads (he _)
  case lswi => exact loadString_leads (he _)
  case lswx =>
    unfold execLswx
    split
    · exact loadString_leads (he _)
    · exact raise_leads .refl (by nofun) rfl
  case stswi | stswx => exact storeString_leads (he _)
  case lwarx | ldarx => exact loadReserve_leads (he _)
  case stwcxDot | stdcxDot => exact storeConditional_leads (he _)
  case eciwx => exact externalIn_leads (he _)
  case ecowx => exact externalOut_leads (he _)
  case dcbz => exact zeroBlock_leads (he _)
  case icbi | dcbi | dcbst | dcbf => exact cacheOp_leads (he _)

/-- Fetching, executing and tracing one instruction is a chain of elementary effects. -/
theorem runWord_leads (w : InstWord) (s : State) : Leads s (runWord w s) := by
  intro t h
  obtain ⟨r, -, rfl⟩ | ⟨i, rest, u, -, hu, rfl⟩ := runWord_next h
  · exact Effects.exception .refl (by nofun) rfl _
  · have hexec : Effects s u := exec_leads i s u hu
    obtain ht | ⟨-, -, e, he, ht⟩ := traceAfter_cases i (msrSE s.context) (msrBE s.context) u
    · rwa [ht]
    · have hplain : ∀ e ∈ traceException, e ≠ .decrementer ∧ e.fault? = none := by decide
      exact ht ▸ hexec.exception (hplain e he).1 (hplain e he).2 _

theorem runInstruction_leads (s : State) : Leads s (runInstruction s) := by
  intro t h
  obtain ⟨c, -, rfl⟩ | ⟨-, h⟩ | ⟨w, -, h⟩ := runInstruction_next h
  · exact Effects.exception .refl (by nofun) rfl _
  · exact busError_leads (part := fun u => u) .refl t h
  · exact Relation.ReflTransGen.trans (.single (.clobber s _ 0)) (runWord_leads w _ t h)

/-! ## The invariant -/

theorem Effect.inv {s t : State} (h : Effect s t) (hi : Inv s) : Inv t := by
  have f := inv_iff.1 hi
  rw [inv_iff]
  cases h with
  | gpr r v => exact f.setGpr r v
  | fpr r v => exact { f with }
  | cr0 v => exact { f with }
  | spr r v => exact f.writeSpr r v
  | memory l => exact { f with mem := writeBytes_wf f.mem l }
  | reservation r h => exact { f with reservation := h }
  | device w => exact { f with }
  | undefined => exact f.boundedlyUndefined
  | clobber b n => exact f.clobber b n
  | complete => exact f.complete
  | msr v h => exact f.writeMsr (h hi)
  | synchronize => exact { f with window := nofun }
  | restore mask => exact f.returnFrom mask
  | exception e addr hd h => exact f.takeException e addr h
  | checkstop => exact { f with }

theorem Effects.inv {s t : State} (h : Effects s t) (hi : Inv s) : Inv t :=
  h.keeps (fun _ _ => Effect.inv) hi

theorem applyMoves_inv (l : List EnvMove) {s : State} (h : Inv s) : Inv (applyMoves l s) := by
  induction l generalizing s with
  | nil => exact h
  | cons m rest ih => exact ih (inv_iff.2 ((inv_iff.1 h).applyMove m))

theorem beginStep_inv {s : State} (h : Inv s) : Inv (beginStep s) := by
  unfold beginStep
  split
  · exact h
  · exact applyMoves_inv _ h

theorem beginInstruction_inv {s : State} (h : Inv s) : Inv (beginInstruction s) :=
  inv_iff.2 (inv_iff.1 h).beginInstruction

theorem advance_inv {s : State} (h : Inv s) : Inv (advance s) := inv_iff.2 (inv_iff.1 h).advance

theorem boundaryExceptionIn_inv {m : Word} {s t : State} (h : boundaryExceptionIn m s = some t)
    (hi : Inv s) : Inv t ∧ t.cfg = s.cfg := by
  obtain rfl | ⟨e, he, rfl⟩ := boundaryExceptionIn_cases h
  · exact ⟨hi, rfl⟩
  · exact ⟨inv_iff.2 ((inv_iff.1 hi).takeException e _ (by simp [he])), rfl⟩

@[simp] theorem advance_cfg (s : State) : (advance s).cfg = s.cfg := by rw [advance_frame]

theorem runInstruction_inv {s t : State} (h : runInstruction (beginInstruction s) = .next t)
    (hi : Inv s) : Inv t ∧ t.cfg = s.cfg :=
  have he := runInstruction_leads _ t h
  ⟨he.inv (beginInstruction_inv hi), he.cfg_eq⟩

theorem settle_inv {s t : State} (hs : Inv s) (ht : Inv t ∧ t.cfg = s.cfg) :
    Inv (settle s t) ∧ (settle s t).cfg = s.cfg := by
  obtain h | ⟨-, h⟩ := settle_cases s t
  · rwa [h]
  · exact boundaryExceptionIn_inv h hs

/-- A step keeps the invariant and the configuration record. -/
theorem step_inv {s t : State} (hi : Inv s) (h : step s = .next t) : Inv t ∧ t.cfg = s.cfg := by
  have hb := beginStep_inv hi
  rw [← beginStep_cfg s]
  obtain ⟨-, rfl⟩ | ⟨-, ⟨u, hu, rfl⟩ | ⟨-, ⟨-, rfl⟩ | ⟨-, u, hu, rfl⟩⟩⟩ := step_next h
  · exact ⟨hb, rfl⟩
  · obtain ⟨m, hm⟩ := boundaryException_some hu
    obtain ⟨hinv, hcfg⟩ := boundaryExceptionIn_inv hm hb
    exact ⟨advance_inv hinv, (advance_cfg u).trans hcfg⟩
  · exact ⟨advance_inv hb, advance_cfg _⟩
  · obtain ⟨hinv, hcfg⟩ := settle_inv hb (runInstruction_inv hu hb)
    exact ⟨advance_inv hinv, (advance_cfg _).trans hcfg⟩

/-! ## The decrementer request -/

/-- From `s` to `t` no decrementer request was lost: one is pending if bit 0 of DEC has gone from 0 to 1, and
one that was pending still is (10 R49). -/
structure RequestKept (s t : State) : Prop where
  made : s.dec.getMsbD 0 = false → t.dec.getMsbD 0 = true → t.decPending = true
  kept : s.decPending = true → t.decPending = true

theorem RequestKept.of_eq {s t : State} (hd : t.dec = s.dec) (hp : t.decPending = s.decPending) :
    RequestKept s t where
  made h h' := by simp_all
  kept h := hp.trans h

theorem RequestKept.trans {s t u : State} (h : RequestKept s t) (h' : RequestKept t u) : RequestKept s u where
  made hs hu := by
    cases ht : t.dec.getMsbD 0 with
    | false => exact h'.made ht hu
    | true => exact h'.kept (h.made hs ht)
  kept hs := h'.kept (h.kept hs)

theorem setDec_requestKept (s : State) (v : BitVec 32) : RequestKept s (s.setDec v) where
  made h h' := by simp_all [State.setDec]
  kept h := by simp [State.setDec, h]

theorem advance_decPending (s : State) :
    (advance s).decPending = (s.decPending || (!s.dec.getMsbD 0 && (advance s).dec.getMsbD 0)) := by
  unfold advance countDown
  split_ifs <;> simp

theorem advance_requestKept (s : State) : RequestKept s (advance s) where
  made h h' := by simp [advance_decPending, h, h']
  kept h := by simp [advance_decPending, h]

/-- Entry to the decrementer exception cancels the request, and entry to no other does. -/
theorem takeException_decPending_eq (e : Exc) (addr : Word) (s : State) :
    (takeException e addr s).decPending = if e = .decrementer then false else s.decPending := by
  cases e <;> simp

theorem takeException_requestKept {e : Exc} (he : e ≠ .decrementer) (addr : Word) (s : State) :
    RequestKept s (takeException e addr s) :=
  .of_eq rfl (by rw [takeException_decPending_eq, if_neg he])

theorem Effect.requestKept {s t : State} (h : Effect s t) : RequestKept s t := by
  cases h with
  | spr r v => cases r with
    | dec => exact setDec_requestKept s _
    | _ => exact .of_eq rfl rfl
  | clobber b n => exact .of_eq (State.clobber_dec _ _ _) (State.clobber_decPending _ _ _)
  | exception e addr hd h => exact takeException_requestKept hd addr s
  | undefined => exact .of_eq (by rw [boundedlyUndefined]) (by rw [boundedlyUndefined])
  | gpr | fpr | cr0 | memory | reservation | device | complete | msr | synchronize | restore
  | checkstop => exact .of_eq rfl rfl

theorem Effects.requestKept {s t : State} (h : Effects s t) : RequestKept s t :=
  h.keeps (P := RequestKept s) (fun _ _ he hs => hs.trans he.requestKept) (.of_eq rfl rfl)

theorem applyMoves_dec {l : List EnvMove} (hl : EnvMove.hardReset ∉ l) (s : State) :
    (applyMoves l s).dec = s.dec ∧ (applyMoves l s).decPending = s.decPending := by
  induction l generalizing s with
  | nil => exact ⟨rfl, rfl⟩
  | cons m rest ih =>
    rw [List.mem_cons, not_or] at hl
    have hmove : (applyMove s m).dec = s.dec ∧ (applyMove s m).decPending = s.decPending := by
      cases m with
      | hardReset => exact absurd rfl hl.1
      | setExternal | requestSystemReset | requestMachineCheck | setFex => exact ⟨rfl, rfl⟩
    exact ⟨(ih hl.2 _).1.trans hmove.1, (ih hl.2 _).2.trans hmove.2⟩

/-- No move of the environment but a hard reset writes DEC or the request. -/
theorem beginStep_dec {s : State} (h : noHardReset s) :
    (beginStep s).dec = s.dec ∧ (beginStep s).decPending = s.decPending := by
  unfold noHardReset at h
  unfold beginStep
  split
  · exact ⟨rfl, rfl⟩
  · rename_i moves rest henv
    exact applyMoves_dec (by simpa [henv] using h) _

/-- What a step may do to the request of the state `b` at its instruction boundary: keep it, or take the
decrementer exception. -/
theorem boundaryExceptionIn_request {m : Word} {b u : State} (h : boundaryExceptionIn m b = some u) :
    RequestKept b u ∨ u = takeException .decrementer b.nia b := by
  obtain rfl | ⟨e, -, rfl⟩ := boundaryExceptionIn_cases h
  · exact .inl (.of_eq rfl rfl)
  · by_cases he : e = .decrementer
    · exact .inr (by rw [he])
    · exact .inl (takeException_requestKept he _ _)

theorem settle_request {b u : State} (h : RequestKept b u) :
    RequestKept b (settle b u) ∨ settle b u = takeException .decrementer b.nia b := by
  obtain hs | ⟨-, hs⟩ := settle_cases b u
  · exact .inl (by rwa [hs])
  · exact boundaryExceptionIn_request hs

/-- A step loses no request but by taking the decrementer exception. -/
theorem step_request {s t : State} (h : step s = .next t) : RequestKept (beginStep s) t ∨
    t = advance (takeException .decrementer (beginStep s).nia (beginStep s)) := by
  obtain ⟨-, rfl⟩ | ⟨-, ⟨u, hu, rfl⟩ | ⟨-, ⟨-, rfl⟩ | ⟨-, u, hu, rfl⟩⟩⟩ := step_next h
  · exact .inl (.of_eq rfl rfl)
  · obtain ⟨m, hm⟩ := boundaryException_some hu
    exact (boundaryExceptionIn_request hm).imp (·.trans (advance_requestKept u)) (congrArg advance)
  · exact .inl (advance_requestKept _)
  · have hbegin : RequestKept (beginStep s) (beginInstruction (beginStep s)) := .of_eq rfl rfl
    have hrun := hbegin.trans (runInstruction_leads _ u hu).requestKept
    exact (settle_request hrun).imp (·.trans (advance_requestKept _)) (congrArg advance)

/-- `mtspr` to DEC in supervisor mode. -/
theorem exec_mtspr_dec {s : State} (rs : Reg) (h : msrPR s.context = false) :
    exec (.mtspr 22 rs) s = .next (s.setDec ((s.readGpr rs).setWidth 32)).complete := by
  rw [exec_mtspr, execMtspr, withSpr, admit_plain rfl rfl rfl rfl, h, Bool.and_false, if_neg Bool.false_ne_true]
  rfl

end Sys2Proof.Machine

open Sys2Proof Sys2Proof.Machine

/-- Settles O8: the state after reset has empty memory, the vector address in NIA and a 64-bit
configuration, which every value fits. -/
theorem resetHasInvariant : Obligations.ResetHasInvariant := by
  have h64 : State.reset.cfg.is64 = true := rfl
  exact inv_iff.2
    { mem := rfl
      niaAligned := rfl
      ciaAligned := rfl
      gpr := fun _ => fits_of_is64 h64 _
      nia := fits_of_is64 h64 _
      cia := fits_of_is64 h64 _
      msr := fits_of_is64 h64 _
      srr0 := fits_of_is64 h64 _
      srr1 := fits_of_is64 h64 _
      dar := fits_of_is64 h64 _
      lr := fits_of_is64 h64 _
      ctr := fits_of_is64 h64 _
      dabr := fits_of_is64 h64 _
      window := nofun
      reservation := nofun }

/-- Settles O9, by evaluating the MSR and the NIA of the reset state. -/
theorem resetState : Obligations.ResetState := by
  unfold Obligations.ResetState HandlerMsr
  exact ⟨rfl, rfl, by decide, by decide, by decide, by decide⟩

/-- Settles O7: each part of a step keeps the invariant, an instruction because each of its elementary
effects does. -/
theorem stepKeepsInvariant : Obligations.StepKeepsInvariant :=
  fun _ _ hi h => step_inv hi h

/-- Settles O55: the environment keeps the request, the rest of a step keeps it or takes the decrementer
exception, after which only the count can make one. -/
theorem decrementerRequest : Obligations.DecrementerRequest := by
  intro s
  refine ⟨fun rs hpr => ⟨_, exec_mtspr_dec rs hpr, ?_, rfl⟩, advance_decPending s,
    fun e addr => takeException_decPending_eq e addr s, fun t hreset h => ?_⟩
  · exact BitVec.setWidth_eq_extractLsb' (v := 64) (w := 32) (by decide)
  · obtain ⟨hdec, hpending⟩ := beginStep_dec hreset
    rw [← hdec, ← hpending]
    obtain hstep | rfl := step_request h
    · exact ⟨hstep.made, fun hp => .inl (hstep.kept hp)⟩
    · have hmade := (advance_requestKept (takeException .decrementer (beginStep s).nia (beginStep s))).made
      rw [takeException_dec] at hmade
      exact ⟨hmade, fun _ => .inr rfl⟩

end

section
/-! Proofs about memory (20_memory.md): where exceptions continue and in which context, the byte order of fetches
and operands, and the multiples and strings that little-endian mode excludes. -/

namespace Sys2Proof.Machine

/-! ## The MSR of a handler -/

/-- The MSR of entry before `ME` and `SF`, which depend on the exception and the implementation (60 R274). -/
def handlerBits (m : Word) : Word := (m &&& ~~~(0x0004EF33 : Word)) ||| ((m >>> 16) &&& 1)

/-- Of the MSR of entry only `SF` and `ME` depend on the exception or the implementation. -/
theorem getMsbD_entryMsr (c : Config) (e : Exc) (m : Word) {k : Nat} (hsf : k ≠ 0) (hme : k ≠ 51) :
    (entryMsr c e m).getMsbD k = (handlerBits m).getMsbD k := by
  by_cases hk : k < 64
  · have hmaskSF : ∀ j : Fin 64, j.val ≠ 0 → maskSF.getMsbD j.val = false := by decide
    have hmaskME : ∀ j : Fin 64, j.val ≠ 51 → (0x1000 : Word).getMsbD j.val = false := by decide
    have hSF : maskSF.getMsbD k = false := hmaskSF ⟨k, hk⟩ hsf
    have hME : (0x1000 : Word).getMsbD k = false := hmaskME ⟨k, hk⟩ hme
    have hstep (v : Word) : (if c.is64 then (if c.hasIsf && !msrISF m then v &&& ~~~maskSF else v ||| maskSF)
        else v).getMsbD k = v.getMsbD k := by
      split_ifs <;> simp [BitVec.getMsbD_and, BitVec.getMsbD_or, BitVec.getMsbD_not, hk, hSF]
    unfold entryMsr
    cases e with
    | machineCheck lost =>
      refine (hstep _).trans ?_
      rw [BitVec.getMsbD_and, BitVec.getMsbD_not, hME]
      simp [hk, handlerBits]
    | _ => exact hstep _
  · rw [BitVec.getMsbD_of_ge _ _ (by omega), BitVec.getMsbD_of_ge _ _ (by omega)]

/-- Entry does not alter `IP` (60 R274). -/
@[simp] theorem msrIP_entryMsr (c : Config) (e : Exc) (m : Word) : msrIP (entryMsr c e m) = msrIP m := by
  rw [msrIP, getMsbD_entryMsr c e m (by decide) (by decide)]
  simp [msrIP, handlerBits, BitVec.getMsbD_and, BitVec.getMsbD_or, BitVec.getMsbD_ushiftRight]

/-- Entry leaves the context of a handler (60 R274, R276). -/
theorem handlerMsr_entryMsr (c : Config) (e : Exc) (m : Word) : HandlerMsr (entryMsr c e m) := by
  simp only [HandlerMsr, msrPR, msrEE, msrIR, msrDR, msrFP, msrRI, msrPOW, msrSE, msrBE, msrFE0, msrFE1, msrLE,
    msrILE, getMsbD_entryMsr c e m, ne_eq, not_false_eq_true, OfNat.ofNat_ne_zero, Nat.reduceEqDiff]
  simp [handlerBits, BitVec.getMsbD_and, BitVec.getMsbD_or, BitVec.getMsbD_ushiftRight]

/-- The vector base by `IP` and the width of the implementation (20 R61). -/
theorem vectorBase_eq (c : Config) (ip : Bool) : vectorBase c ip =
    if ip = false then 0 else if c.xlen = .w32 then 0x00000000FFF00000 else 0xFFFFFFFFFFF00000 := by
  unfold vectorBase Config.is64
  cases ip <;> cases c.xlen <;> rfl

/-- Each vector offset is a multiple of 0x100 (20 R62). -/
theorem offset_and_low (e : Exc) : e.offset &&& 0xFF = 0 := by
  have hall : (vectorOffsets.all fun v => v &&& 0xFF == 0) = true := by decide
  simpa using List.all_eq_true.1 hall _ (offset_mem e)

/-! ## The `mtmsr` window -/

/-- The implementation has no `mtmsr` window, and none is open. -/
def Windowless (s : State) : Prop := s.cfg.msrWindow = false ∧ s.window = []

theorem Windowless.context_eq {s : State} (h : Windowless s) : s.context = s.msr :=
  State.context_of_closed h.2

theorem Effect.windowless {s t : State} (h : Effect s t) (hw : Windowless s) : Windowless t := by
  refine ⟨h.cfg_eq ▸ hw.1, ?_⟩
  have hwin := hw.2
  cases h with
  | msr v _ => rw [State.writeMsr_window, if_neg (by simp [hw.1])]
  | spr r v => cases r <;> exact hwin
  | clobber b n => rwa [State.clobber_window]
  | undefined => rwa [boundedlyUndefined]
  | synchronize | restore | exception => rfl
  | gpr | fpr | cr0 | memory | reservation | device | complete | checkstop => exact hwin

theorem Effects.windowless {s t : State} (h : Effects s t) (hw : Windowless s) : Windowless t :=
  h.keeps (fun _ _ => Effect.windowless) hw

/-- No move of the environment opens a window. -/
theorem applyMove_windowless {s : State} (h : Windowless s) (m : EnvMove) : Windowless (applyMove s m) := by
  cases m with
  | hardReset => exact ⟨h.1, rfl⟩
  | setExternal | requestSystemReset | requestMachineCheck | setFex => exact h

theorem applyMoves_windowless (l : List EnvMove) {s : State} (h : Windowless s) : Windowless (applyMoves l s) := by
  induction l generalizing s with
  | nil => exact h
  | cons m rest ih => exact ih (applyMove_windowless h m)

theorem beginStep_windowless {s : State} (h : Windowless s) : Windowless (beginStep s) := by
  unfold beginStep
  split
  · exact h
  · exact applyMoves_windowless _ h

/-! ## Every exception is an entry, and nothing follows it -/

/-- From `s` elementary effects lead to a state in which an exception is taken, and `t` is what its entry
leaves. -/
def Enters (s t : State) : Prop := ∃ u e addr, Effects s u ∧ t = takeException e addr u

/-- The next state a result answers, if any, is one in which no further exception was taken, or one that an
exception entry left. -/
def Ends (s : State) (r : Result) : Prop := ∀ t, r = .next t → t.taken = s.taken ∨ Enters s t

theorem Enters.of_effects {s u t : State} (h : Effects s u) (ht : Enters u t) : Enters s t := by
  obtain ⟨v, e, addr, hv, rfl⟩ := ht
  exact ⟨v, e, addr, h.trans hv, rfl⟩

theorem Ends.next {s t : State} (h : t.taken = s.taken) : Ends s (.next t) := by
  rintro _ ⟨⟩
  exact .inl h

theorem Ends.exception {s u : State} (h : Effects s u) (e : Exc) (addr : Word) :
    Ends s (.next (takeException e addr u)) := by
  rintro _ ⟨⟩
  exact .inr ⟨u, e, addr, h, rfl⟩

theorem Ends.fault (s : State) (f : Fault) : Ends s (.fault f) := by
  rintro _ ⟨⟩

/-! ### The storage procedure -/

theorem admit_ends {i : Instr} {s : State} {k : State → Result} (hk : Ends s (k s)) :
    Ends s (whenAdmitted i s k) := by
  rcases admit_cases i s k with ⟨e, -, h⟩ | h <;> rw [h]
  · exact .exception .refl e _
  · exact hk

/-- Checkstop takes no exception. -/
theorem busError_ends {s : State} {part : State → State} (h : Effects s (part s))
    (ht : (part s).taken = s.taken) : Ends s (busError part s) := by
  rcases busError_cases part s with hb | hb | hb <;> rw [hb]
  · exact .fault s _
  · exact .exception h _ _
  · exact .next ht

/-- The storage procedure takes an exception last, whatever its partial execution did, or none at all. -/
theorem perform_ends {s : State} {a : Access} {part : Nat → State → State} {body : State → State}
    (hp : ∀ n, Effects s (part n s)) (ht : ∀ n, (part n s).taken = s.taken)
    (hb : (body s).taken = s.taken) : Ends s (perform a part body s) := by
  rcases perform_cases a part body s with
    ⟨-, h⟩ | ⟨-, h⟩ | ⟨-, f, -, h⟩ | ⟨-, -, n, -, h⟩ | ⟨-, h⟩ <;> rw [h]
  · exact .next (by rw [State.complete_taken, boundedlyUndefined])
  · exact .exception (hp _) _ _
  · exact .exception (hp _) _ _
  · exact busError_ends (hp n) (ht n)
  · exact .next (by rw [State.finish_taken, hb])

/-! ### The operations of the storage instructions -/

@[simp] theorem State.updateBase_taken (s : State) (base : Option Reg) (ea : Word) :
    (s.updateBase base ea).taken = s.taken := by cases base <;> rfl

@[simp] theorem loadWords_taken (s : State) (a : Access) (rd : Reg) (keep : Nat → Bool) (n : Nat) (t : State) :
    (loadWords s a rd keep n t).taken = t.taken := by rw [loadWords_eq]

@[simp] theorem condStore_taken (a : Access) (data : List Byte) (s : State) :
    (condStore a data s).taken = s.taken := by
  unfold condStore
  dsimp only
  split <;> rfl

@[simp] theorem partialCond_taken (a : Access) (data : List Byte) (n : Nat) (s : State) :
    (partialCond a data n s).taken = s.taken := by
  unfold partialCond
  dsimp only
  split <;> rfl

@[simp] theorem partialFloat_taken (r : FReg) (n : Nat) (s : State) :
    (partialFloat r n s).taken = s.taken := by
  unfold partialFloat
  split <;> rfl

@[simp] theorem partialSend_taken (a : Access) (v : Word) (n : Nat) (s : State) :
    (partialSend a v n s).taken = s.taken := by
  unfold partialSend
  extract_lets moved byte sent
  split <;> rfl

/-! ### The storage instructions -/

/-- A storage instruction without partial execution, whose operation takes no exception. -/
theorem performWhole_ends {i : Instr} {a : Access} {body : State → State} {s : State}
    (hb : (body s).taken = s.taken) : Ends s (whenAdmitted i s fun s => perform a partialNone body s) :=
  admit_ends (perform_ends (partialNone_effects · s) (fun _ => rfl) hb)

theorem loadInt_ends (i : Instr) (n : Nat) (conv : Word → Word) (rd : Reg) (base : Option Reg) (ea : Word)
    (s : State) : Ends s (loadInt i n conv rd base ea s) :=
  performWhole_ends (State.updateBase_taken (s.setGpr rd _) base ea)

theorem loadReserve_ends (i : Instr) (n : Nat) (rd : Reg) (ea : Word) (s : State) :
    Ends s (loadReserve i n rd ea s) :=
  performWhole_ends (State.setGpr_taken s rd (s.operand (reserveAccess i false n ea)))

theorem externalIn_ends (i : Instr) (rd : Reg) (ea : Word) (s : State) : Ends s (externalIn i rd ea s) :=
  performWhole_ends (State.setGpr_taken s rd _)

theorem cacheOp_ends (i : Instr) (store : Bool) (ea : Word) (s : State) : Ends s (cacheOp i store ea s) :=
  performWhole_ends (body := fun s => s) rfl

theorem storeInt_ends (i : Instr) (n : Nat) (v : Word) (base : Option Reg) (ea : Word) (s : State) :
    Ends s (storeInt i n v base ea s) :=
  admit_ends (perform_ends (partialStore_effects _ _ · s) (fun _ => rfl) (State.updateBase_taken _ _ _))

theorem loadFloat_ends (i : Instr) (n : Nat) (conv : Word → Word) (frd : FReg) (base : Option Reg) (ea : Word)
    (s : State) : Ends s (loadFloat i n conv frd base ea s) :=
  admit_ends (perform_ends (partialFloat_effects _ · s) (partialFloat_taken _ · s)
    (State.updateBase_taken _ _ _))

theorem storeFloat_ends (i : Instr) (n : Nat) (v : Word) (base : Option Reg) (ea : Word) (s : State) :
    Ends s (storeFloat i n v base ea s) :=
  admit_ends (perform_ends (partialStore_effects _ _ · s) (fun _ => rfl) (State.updateBase_taken _ _ _))

/-- The load of the words of a multiple or string operand. -/
theorem performWords_ends (a : Access) (rd : Reg) (s : State) :
    Ends s (perform a (partialWords a rd) (fun s => loadWords s a rd (fun _ => true) a.words s) s) :=
  perform_ends (partialWords_effects _ _ · s) (fun _ => loadWords_taken _ _ _ _ _ _) (loadWords_taken _ _ _ _ _ _)

/-- The store of the bytes of a multiple or string operand. -/
theorem performBytes_ends (a : Access) (data : List Byte) (s : State) :
    Ends s (perform a (partialStore a data) (storeBytes a data) s) :=
  perform_ends (partialStore_effects _ _ · s) (fun _ => rfl) rfl

theorem loadMultiple_ends (i : Instr) (rd : Reg) (ea : Word) (s : State) : Ends s (loadMultiple i rd ea s) :=
  admit_ends (performWords_ends _ _ s)

theorem storeMultiple_ends (i : Instr) (rs : Reg) (ea : Word) (s : State) : Ends s (storeMultiple i rs ea s) :=
  admit_ends (performBytes_ends _ _ s)

theorem loadString_ends (i : Instr) (rd : Reg) (n : Nat) (ea : Word) (s : State) :
    Ends s (loadString i rd n ea s) := by
  refine admit_ends ?_
  split
  · exact .next rfl
  · exact performWords_ends _ _ s

theorem storeString_ends (i : Instr) (rs : Reg) (n : Nat) (ea : Word) (s : State) :
    Ends s (storeString i rs n ea s) := by
  refine admit_ends ?_
  split
  · exact .next rfl
  · exact performBytes_ends _ _ s

theorem storeConditional_ends (i : Instr) (n : Nat) (v ea : Word) (s : State) :
    Ends s (storeConditional i n v ea s) := by
  refine admit_ends ?_
  dsimp only
  split
  · exact .next (by simp)
  · exact perform_ends (partialCond_effects _ _ · s) (partialCond_taken _ _ · s) (condStore_taken _ _ _)

theorem externalOut_ends (i : Instr) (v ea : Word) (s : State) : Ends s (externalOut i v ea s) :=
  admit_ends (perform_ends (partialSend_effects _ _ · s) (partialSend_taken _ _ · s) rfl)

theorem zeroBlock_ends (i : Instr) (ea : Word) (s : State) : Ends s (zeroBlock i ea s) :=
  admit_ends (perform_ends (fun _ => .single (.memory s _)) (fun _ => rfl) rfl)

/-! ### The system instructions -/

theorem trapOn_ends (i : Instr) (cond : TrapTo) (x y : Word) (s : State) : Ends s (trapOn i cond x y s) := by
  refine admit_ends ?_
  split
  · exact .exception .refl _ _
  · exact .next rfl

theorem withSpr_ends {i : Instr} {n : SprNum} {s : State} {k : Spr → State → Result}
    (hk : ∀ r, Ends s (k r s)) : Ends s (withSpr i n s k) := by
  refine admit_ends ?_
  split
  · exact .exception .refl _ _
  · split
    · exact hk _
    · exact .exception .refl _ _

@[simp] theorem State.writeSpr_taken (s : State) (r : Spr) (v : Word) : (s.writeSpr r v).taken = s.taken := by
  cases r <;> rfl

/-! ### Every instruction -/

/-- An instruction takes an exception by entry and does nothing after it, or takes none. -/
theorem exec_ends (i : Instr) (s : State) : Ends s (exec i s) := by
  cases i
  all_goals rw [exec]
  case tdi | twi | tw | td => exact trapOn_ends _ _ _ _ s
  case sc => exact admit_ends (.exception .refl _ _)
  case rfi | rfid | sync | isync | mtmsr | mtmsrd | mfmsr => exact admit_ends (.next rfl)
  case mfspr => exact withSpr_ends fun _ => .next rfl
  case mtspr => exact withSpr_ends fun r => .next (State.writeSpr_taken s r _)
  case lwz | lwzu | lhz | lhzu | lha | lhau | ld | ldu | lwa | ldx | ldux | lwax | lwaux | lwbrx | lhbrx | lwzx
      | lwzux | lhzx | lhzux | lhax | lhaux | lbz | lbzu | lbzx | lbzux =>
    exact loadInt_ends _ _ _ _ _ _ s
  case stw | stwu | sth | sthu | std | stdu | stdx | stdux | stwbrx | sthbrx | stwx | stwux | sthx | sthux | stb
      | stbu | stbx | stbux =>
    exact storeInt_ends _ _ _ _ _ s
  case lfs | lfsu | lfd | lfdu | lfsx | lfsux | lfdx | lfdux => exact loadFloat_ends _ _ _ _ _ _ s
  case stfs | stfsu | stfd | stfdu | stfsx | stfsux | stfdx | stfdux | stfiwx => exact storeFloat_ends _ _ _ _ _ s
  case lmw => exact loadMultiple_ends _ _ _ s
  case stmw => exact storeMultiple_ends _ _ _ s
  case lswi => exact loadString_ends _ _ _ _ s
  case lswx =>
    unfold execLswx
    split
    · exact loadString_ends _ _ _ _ s
    · exact .exception .refl _ _
  case stswi | stswx => exact storeString_ends _ _ _ _ s
  case stwcxDot | stdcxDot => exact storeConditional_ends _ _ _ _ s
  case ecowx => exact externalOut_ends _ _ _ s
  case dcbz => exact zeroBlock_ends _ _ s
  case lwarx | ldarx => exact loadReserve_ends _ _ _ _ s
  case eciwx => exact externalIn_ends _ _ _ s
  case icbi | dcbi | dcbst | dcbf => exact cacheOp_ends _ _ _ s

theorem runWord_ends (w : InstWord) (s : State) : Ends s (runWord w s) := by
  intro t h
  obtain ⟨r, -, rfl⟩ | ⟨i, rest, u, -, hu, rfl⟩ := runWord_next h
  · exact .inr ⟨s, _, _, .refl, rfl⟩
  · obtain ht | ⟨-, -, e, -, ht⟩ := traceAfter_cases i (msrSE s.context) (msrBE s.context) u <;> rw [ht]
    · exact exec_ends i s u hu
    · exact .inr ⟨u, e, _, exec_leads i s u hu, rfl⟩

theorem runInstruction_ends (s : State) : Ends s (runInstruction s) := by
  intro t h
  obtain ⟨c, -, rfl⟩ | ⟨-, h⟩ | ⟨w, -, h⟩ := runInstruction_next h
  · exact .inr ⟨s, _, _, .refl, rfl⟩
  · exact busError_ends (part := fun u => u) .refl rfl t h
  · exact (runWord_ends w _ t h).imp (·.trans (State.clobber_taken _ _ _))
      (.of_effects (.single (.clobber s _ 0)))

/-! ### The step -/

theorem boundaryExceptionIn_ends {m : Word} {s t : State} (h : boundaryExceptionIn m s = some t) :
    t.taken = s.taken ∨ Enters s t := by
  obtain rfl | ⟨e, -, rfl⟩ := boundaryExceptionIn_cases h
  · exact .inl rfl
  · exact .inr ⟨s, e, _, .refl, rfl⟩

theorem applyMoves_taken (l : List EnvMove) (s : State) : (applyMoves l s).taken = s.taken := by
  induction l generalizing s with
  | nil => rfl
  | cons m rest ih =>
    rw [applyMoves, ih]
    cases m with
    | hardReset => rw [applyMove, hardReset]
    | setExternal | requestSystemReset | requestMachineCheck | setFex => rfl

/-- No exception has been taken where a step begins. -/
@[simp] theorem beginStep_taken (s : State) : (beginStep s).taken = false := by
  unfold beginStep
  split
  · rfl
  · rw [applyMoves_taken]

@[simp] theorem advance_taken (s : State) : (advance s).taken = s.taken := by rw [advance_frame]
@[simp] theorem advance_msr (s : State) : (advance s).msr = s.msr := by rw [advance_frame]
@[simp] theorem advance_nia (s : State) : (advance s).nia = s.nia := by rw [advance_frame]
@[simp] theorem advance_window (s : State) : (advance s).window = s.window := by rw [advance_frame]

/-- A step that takes an exception ends, but for the count of time, with the entry to it, from a state that
effects of the instruction at most lead to from the state `b` at the boundary: from `b` itself or from the
beginning of the instruction. -/
theorem step_enters {s t : State} (h : step s = .next t) (ht : t.taken = true) :
    ∃ b u, (b = beginStep s ∨ b = beginInstruction (beginStep s)) ∧ Enters b u ∧ t = advance u := by
  have hfresh {u : State} (hu : (advance u).taken = true) : u.taken ≠ (beginStep s).taken := by
    rw [beginStep_taken, ← advance_taken, hu]
    decide
  obtain ⟨-, rfl⟩ | ⟨-, ⟨u, hu, rfl⟩ | ⟨-, ⟨-, rfl⟩ | ⟨-, u, hu, rfl⟩⟩⟩ := step_next h
  · rw [beginStep_taken] at ht
    cases ht
  · obtain ⟨m, hm⟩ := boundaryException_some hu
    exact ⟨_, u, .inl rfl, (boundaryExceptionIn_ends hm).resolve_left (hfresh ht), rfl⟩
  · exact absurd rfl (hfresh ht)
  · obtain hs | ⟨-, hs⟩ := settle_cases (beginStep s) u
    · rw [hs] at ht ⊢
      exact ⟨_, u, .inr rfl, (runInstruction_ends _ u hu).resolve_left (hfresh ht), rfl⟩
    · exact ⟨_, _, .inl rfl, (boundaryExceptionIn_ends hs).resolve_left (hfresh ht), rfl⟩

/-- An entry leaves the context of a handler, at a vector; without a window, at that of its own `IP`. -/
theorem Enters.handler {s t : State} (h : Enters s t) :
    HandlerMsr t.msr ∧ t.window = [] ∧ (∃ ip, IsVector t.cfg ip t.nia) ∧
      (Windowless s → IsVector t.cfg (msrIP t.msr) t.nia) := by
  obtain ⟨u, e, addr, hu, rfl⟩ := h
  refine ⟨handlerMsr_entryMsr _ e _, rfl, ⟨msrIP u.context, e, rfl⟩, fun hw => ⟨e, ?_⟩⟩
  rw [takeException_msr, msrIP_entryMsr, takeException_nia, (hu.windowless hw).context_eq, takeException_cfg]

/-! ## Byte order (20 R68) -/

/-- An exclusive-or of the three low-order bits of a number leaves the others. -/
theorem xor_low (x : Nat) {c : Nat} (hc : c < 8) : x ^^^ c = 8 * (x / 8) + (x % 8 ^^^ c) := by
  have hdiv : (x ^^^ c) / 2 ^ 3 = x / 8 := by
    rw [Nat.xor_div_two_pow, Nat.div_eq_of_lt (by omega : c < 2 ^ 3), Nat.xor_zero]
  have hmod : (x ^^^ c) % 2 ^ 3 = x % 8 ^^^ c := by
    rw [Nat.xor_mod_two_pow, Nat.mod_eq_of_lt (by omega : c < 2 ^ 3)]
  omega

/-- The offset of an aligned operand in its double word does not carry. -/
theorem toNat_add_aligned {q : Word} {n i : Nat} (hn : n ∈ [1, 2, 4, 8]) (hq : q.toNat % n = 0)
    (hi : i < n) : (q + BitVec.ofNat 64 i).toNat = q.toNat + i ∧ q.toNat % 8 + i < 8 := by
  have hlt := q.isLt
  rw [BitVec.toNat_add, BitVec.toNat_ofNat]
  simp only [List.mem_cons, List.not_mem_nil, or_false] at hn
  rcases hn with rfl | rfl | rfl | rfl <;> omega

/-- Within one double word, at the offset `r` of an aligned operand: the byte `i` from the operand's end, its offset
modified by 7, lies `i` after the operand's offset modified by `8 - n`. -/
theorem xor_byte_eq_xor_operand : ∀ n ∈ [1, 2, 4, 8], ∀ r < 8, r % n = 0 → ∀ i < n,
    (r + (n - 1 - i)) ^^^ 7 = (r ^^^ (8 - n)) + i := by decide

/-- The two accounts of little-endian mode (20 R68) agree on an aligned operand: each byte modified by 7, or
the operand's address modified by its length and the bytes in reverse. -/
theorem xor_byteAddress {q : Word} {n i : Nat} (hn : n ∈ [1, 2, 4, 8]) (hq : q.toNat % n = 0) (hi : i < n) :
    (q + BitVec.ofNat 64 (n - 1 - i)) ^^^ 7 = (q ^^^ BitVec.ofNat 64 (8 - n)) + BitVec.ofNat 64 i := by
  obtain ⟨hsum, hfits⟩ := toNat_add_aligned hn hq (show n - 1 - i < n by omega)
  have hdvd : n ∣ 8 := (by decide : ∀ n ∈ [1, 2, 4, 8], n ∣ 8) n hn
  have hle : n ≤ 8 := Nat.le_of_dvd (by decide) hdvd
  have hr : q.toNat % 8 % n = 0 := by rw [Nat.mod_mod_of_dvd _ hdvd, hq]
  have hlow := xor_byte_eq_xor_operand n hn (q.toNat % 8) (Nat.mod_lt _ (by decide)) hr i hi
  have hbyte : (q.toNat + (n - 1 - i)) ^^^ 7 = 8 * (q.toNat / 8) + ((q.toNat % 8 ^^^ (8 - n)) + i) := by
    rw [xor_low _ (by decide), ← hlow]
    congr 2 <;> omega
  have hoperand := xor_low q.toNat (c := 8 - n) (by omega)
  have hbound : (q.toNat + (n - 1 - i)) ^^^ 7 < 2 ^ 64 := by
    rw [← hsum]; exact Nat.xor_lt_two_pow (BitVec.isLt _) (by decide)
  apply BitVec.eq_of_toNat_eq
  rw [BitVec.toNat_xor, hsum, BitVec.toNat_add, BitVec.toNat_xor, BitVec.toNat_ofNat, BitVec.toNat_ofNat,
    Nat.mod_eq_of_lt (show 8 - n < 2 ^ 64 by omega), Nat.mod_eq_of_lt (show i < 2 ^ 64 by omega)]
  exact hbyte.trans (by omega)

theorem State.byteAddress_big {s : State} (h : msrLE s.context = false) (pa : Word) :
    s.byteAddress pa = pa := by simp [State.byteAddress, h]

theorem State.byteAddress_little {s : State} (h : msrLE s.context = true) (pa : Word) :
    s.byteAddress pa = pa ^^^ 7 := by simp [State.byteAddress, h]

/-- The address at which the most significant byte of an operand of `n` bytes at physical address `q` lies, for
`n` = 1, 2, 4 or 8 and `q` a multiple of `n` (20 R68). -/
def State.operandAddress (s : State) (n : Nat) (q : Word) : Word :=
  if msrLE s.context then q ^^^ BitVec.ofNat 64 (8 - n) else q

/-- Byte `i` of an aligned operand in the order of significance lies `i` after the operand's address. -/
theorem byteAddress_aligned (s : State) {q : Word} {n i : Nat} (hn : n ∈ [1, 2, 4, 8]) (hq : q.toNat % n = 0)
    (hi : i < n) : s.byteAddress (q + BitVec.ofNat 64 (if msrLE s.context then n - 1 - i else i)) =
      s.operandAddress n q + BitVec.ofNat 64 i := by
  unfold State.operandAddress
  cases hle : msrLE s.context
  · exact State.byteAddress_big hle _
  · exact (State.byteAddress_little hle _).trans (xor_byteAddress hn hq hi)

/-- The bytes `f 0`, `f 1`, … of address order in the order of significance. -/
theorem orderBytes_map_range (s : State) (n : Nat) (f : Nat → Byte) : s.orderBytes ((List.range n).map f) =
    (List.range n).map fun i => f (if msrLE s.context then n - 1 - i else i) := by
  unfold State.orderBytes
  cases msrLE s.context
  · rfl
  · simp [← List.map_reverse, List.range_eq_range', List.reverse_range', Function.comp_def]

/-! ## The fetch (60 R263 step 6) -/

/-- A byte appended to a number is its low-order byte. -/
theorem setWidth_append_byte {w : Nat} (hw : w ≤ 56) (v : Word) (b : Byte) :
    (v <<< 8 ||| b.setWidth 64).setWidth (w + 8) = v.setWidth w ++ b := by
  ext i hi
  have h64 : i < 64 := by omega
  simp only [BitVec.getElem_setWidth, BitVec.getLsbD_or, BitVec.getLsbD_shiftLeft, BitVec.getLsbD_setWidth,
    BitVec.getElem_append]
  split <;> simp_all

/-- Four bytes, the first most significant, are the word they make. -/
theorem setWidth_ofBytes_four (b0 b1 b2 b3 : Byte) :
    (ofBytes [b0, b1, b2, b3]).setWidth 32 = wordOfBytes b0 b1 b2 b3 := by
  simp only [ofBytes, List.foldl_cons, List.foldl_nil, wordOfBytes]
  rw [setWidth_append_byte (w := 24) (by decide), setWidth_append_byte (w := 16) (by decide),
    setWidth_append_byte (w := 8) (by decide)]
  simp

/-- Each byte of an aligned operand in address order is one of those from the operand's address on. -/
theorem byteAddress_eq_operandAddress_add (s : State) {q : Word} {n i : Nat} (hn : n ∈ [1, 2, 4, 8])
    (hq : q.toNat % n = 0) (hi : i < n) :
    ∃ j < n, s.byteAddress (q + BitVec.ofNat 64 i) = s.operandAddress n q + BitVec.ofNat 64 j := by
  have hback : n - 1 - (n - 1 - i) = i := by omega
  refine ⟨if msrLE s.context then n - 1 - i else i, by split <;> omega, ?_⟩
  rw [← byteAddress_aligned s hn hq (by split <;> omega)]
  cases msrLE s.context <;> simp [hback]

/-- The bytes of an instruction word have memory where the four bytes from its address in the byte order in
force on do. -/
theorem fetchBytes_present {s : State} {pa : Word} (ha : pa.toNat % 4 = 0)
    (hm : ∀ j < 4, memoryAt s.cfg (s.operandAddress 4 pa + BitVec.ofNat 64 j) = true) :
    (s.fetchBytes pa).all (memoryAt s.cfg) = true := by
  simp only [State.fetchBytes, List.all_eq_true, List.forall_mem_map, List.mem_range]
  intro i hi
  obtain ⟨j, hj, hbyte⟩ := byteAddress_eq_operandAddress_add s (n := 4) (by decide) ha hi
  rw [hbyte]
  exact hm j hj

/-- The instruction word at an aligned address, byte by byte. -/
theorem wordAtPa_aligned {s : State} {pa : Word} (ha : pa.toNat % 4 = 0) :
    let p := s.operandAddress 4 pa
    s.wordAtPa pa = wordOfBytes (Memory.read s.mem p) (Memory.read s.mem (p + 1)) (Memory.read s.mem (p + 2))
      (Memory.read s.mem (p + 3)) := by
  intro p
  have hbytes : s.orderBytes ((s.fetchBytes pa).map (Memory.read s.mem)) =
      (List.range 4).map fun i => Memory.read s.mem (p + BitVec.ofNat 64 i) := by
    rw [State.fetchBytes, List.map_map, orderBytes_map_range]
    refine List.map_congr_left fun i hi => congrArg (Memory.read s.mem) ?_
    exact byteAddress_aligned s (by decide) ha (List.mem_range.1 hi)
  rw [State.wordAtPa, hbytes]
  refine Eq.trans ?_ (setWidth_ofBytes_four _ _ _ _)
  simp [List.range_succ]

/-- A fetch that translation and the attributes of memory permit reads the word at its physical address. -/
theorem fetch_eq_wordAtPa {s : State} {pa : Word} {attrs : Attrs}
    (hx : s.translate .fetch s.cia = .ok pa attrs) (hf : fetchForbidden attrs = false)
    (hm : (s.fetchBytes pa).all (memoryAt s.cfg) = true) : s.fetch = .word (s.wordAtPa pa) := by
  simp [State.fetch, hx, isiCause, hf, xlatePa, hm]

theorem translate_fetch_off {s : State} (h : msrIR s.context = false) (ea : Word) :
    s.translate .fetch ea = .ok ea {} := by
  simp [State.translate, h]

/-! ## Operands -/

/-- Where a byte of an operand that translates lies. -/
theorem bytePa_of_xlate {s : State} {a : Access} {i : Nat} {q : Word} {attrs : Attrs}
    (h : s.byteXlate a i = .ok q attrs) : s.bytePa a i = s.byteAddress q := by
  rw [State.bytePa, h, xlatePa]

/-- An effective address that is one of the current mode, and a multiple of 1, 2, 4 or 8, stays one with the
offset of a byte of the operand added. -/
theorem maskEa_add_aligned {s : State} {ea : Word} {n i : Nat} (hn : n ∈ [1, 2, 4, 8])
    (ha : ea.toNat % n = 0) (he : s.maskEa ea = ea) (hi : i < n) :
    s.maskEa (ea + BitVec.ofNat 64 i) = ea + BitVec.ofNat 64 i := by
  unfold State.maskEa addressIn at he ⊢
  split
  · rfl
  · rw [if_neg (by assumption)] at he
    obtain ⟨hsum, hfits⟩ := toNat_add_aligned hn ha hi
    have hmod (v : Word) : (low32 v).toNat = v.toNat % 2 ^ 32 := by
      simpa [low32] using Nat.and_two_pow_sub_one_eq_mod v.toNat 32
    have hlow : ea.toNat % 2 ^ 32 = ea.toNat := by rw [← hmod, he]
    apply BitVec.eq_of_toNat_eq
    rw [hmod, hsum]
    omega

/-- Where the bytes of an aligned operand that translates to consecutive addresses lie, and the number they
make (20 R67, R68). -/
theorem operand_aligned {s : State} {a : Access} {q : Word} (hn : a.len ∈ [1, 2, 4, 8])
    (hq : q.toNat % a.len = 0)
    (hx : ∀ i, i < a.len → ∃ attrs, s.byteXlate a i = .ok (q + BitVec.ofNat 64 i) attrs) :
    let p := s.operandAddress a.len q
    (∀ i, i < a.len → s.bytePa a (if msrLE s.context then a.len - 1 - i else i) = p + BitVec.ofNat 64 i) ∧
      s.operand a = ofBytes ((List.range a.len).map fun i => Memory.read s.mem (p + BitVec.ofNat 64 i)) := by
  intro p
  have hbyte : ∀ i, i < a.len →
      s.bytePa a (if msrLE s.context then a.len - 1 - i else i) = p + BitVec.ofNat 64 i := by
    intro i hi
    obtain ⟨attrs, h⟩ := hx (if msrLE s.context then a.len - 1 - i else i) (by split <;> omega)
    rw [bytePa_of_xlate h]
    exact byteAddress_aligned s hn hq hi
  refine ⟨hbyte, ?_⟩
  rw [State.operand, orderBytes_map_range]
  exact congrArg ofBytes (List.map_congr_left fun i hi =>
    congrArg (Memory.read s.mem) (hbyte i (List.mem_range.1 hi)))

/-! ## Multiples and strings in little-endian mode (61 R311 (d)) -/

/-- What an exception taken after partial execution writes is what it writes when taken at once. -/
theorem takenFrom_of_partialFrame {s t : State} {a : Access} (h : PartialFrame s a t) (e : Exc)
    (addr : Word) : TakenFrom s (takeException e addr t) e addr := by
  rw [h.fields]
  exact takeException_takenFrom e addr _

/-- An access whose alignment asks for the exception takes it, after partial execution up to a boundary. -/
theorem perform_of_exception {s : State} {a : Access} (h : s.alignChoice a = .exception)
    (part : Nat → State → State) (body : State → State) : perform a part body s =
      raise (.alignment (s.alignImage a) a.ea) (part (s.boundaryReach a) s) := by
  simp [perform, h]

/-- A multiple or string has no alternative to the alignment exception. -/
theorem alignChoice_of_littleEndian {s : State} {a : Access} (hc : a.cls = .multiple ∨ a.cls = .string)
    (hl : msrLE s.context = true) : s.alignChoice a = .exception := by
  have hforced : s.alignForced a = true := by
    rcases hc with h | h <;> simp [State.alignForced, h, hl]
  simp [State.alignChoice, hforced]

end Sys2Proof.Machine

open Sys2Proof Sys2Proof.Machine

/-- Settles O15: a step that takes an exception ends with an entry, and every entry leaves the context of a
handler. -/
theorem exceptionEntersHandlerContext : Obligations.ExceptionEntersHandlerContext := by
  intro s t h ht
  obtain ⟨b, u, hb, hu, rfl⟩ := step_enters h ht
  obtain ⟨hmsr, hwindow, hvector, hown⟩ := hu.handler
  rw [advance_msr, advance_window, advance_cfg, advance_nia]
  refine ⟨hmsr, hwindow, hvector, fun hcfg hw => hown ?_⟩
  have hbegin : Windowless (beginStep s) := beginStep_windowless ⟨hcfg, hw⟩
  obtain rfl | rfl := hb <;> exact hbegin

/-- Settles O6: the four bytes the fetch reads one by one are those from the modified address of the word on. -/
theorem fetchReadsWord : Obligations.FetchReadsWord := by
  intro s readsAt
  have hreads (pa : Word) (attrs : Attrs) (hx : s.translate .fetch s.cia = .ok pa attrs)
      (hf : fetchForbidden attrs = false) : readsAt pa := by
    intro ha h0 h1 h2 h3
    have ha : pa.toNat % 4 = 0 := wordAligned_iff.1 (by simpa [wordAligned] using ha)
    have hpresent : ∀ j < 4, memoryAt s.cfg (s.operandAddress 4 pa + BitVec.ofNat 64 j) = true
      | 0, _ => (congrArg (memoryAt s.cfg) (BitVec.add_zero _)).trans h0
      | 1, _ => h1
      | 2, _ => h2
      | 3, _ => h3
    exact (fetch_eq_wordAtPa hx hf (fetchBytes_present ha hpresent)).trans
      (congrArg Fetched.word (wordAtPa_aligned ha))
  refine ⟨fun hir => hreads _ {} (translate_fetch_off hir _) rfl, fun pa attrs hx hne hg hd => ?_⟩
  exact hreads pa attrs hx (by simp [fetchForbidden, hne, hg, hd])

/-- Settles O47: little-endian mode forces the alignment exception, and what partial execution did before it
does not touch what entry writes. -/
theorem littleEndianMultiples : Obligations.LittleEndianMultiples := by
  intro s i a ha hadm hc hl
  obtain ⟨hreserve, -⟩ | ⟨part, body, hpart, hexec⟩ := exec_performs ha hadm
  · rcases hc with h | h <;> cases hreserve.symm.trans h
  · have hframe := hpart (s.boundaryReach a)
    have hcia : (part (s.boundaryReach a) s).cia = s.cia := by rw [hframe.fields]
    refine ⟨takeException (.alignment (s.alignImage a) a.ea) s.cia (part (s.boundaryReach a) s), ?_,
      takenFrom_of_partialFrame hframe _ s.cia⟩
    rw [hexec, perform_of_exception (alignChoice_of_littleEndian hc hl), raise, hcia]

/-- Settles O53: byte addresses modified one by one, for an aligned operand, are the modification of its
address. -/
theorem operandByteOrder : Obligations.OperandByteOrder := by
  intro s a address lies
  have hlies (q : Word) (hn : a.len ∈ [1, 2, 4, 8]) (hq : q.toNat % a.len = 0)
      (hx : ∀ i, i < a.len → ∃ attrs, s.byteXlate a i = .ok (q + BitVec.ofNat 64 i) attrs) : lies q :=
    operand_aligned hn hq hx
  refine ⟨fun hdr hle i => ?_, fun i q attrs hx => bytePa_of_xlate hx,
    fun hn => ⟨fun hdr ha he => ?_, fun q => hlies q hn⟩⟩
  · exact (bytePa_of_xlate (byteXlate_untranslated hdr a i)).trans (State.byteAddress_big hle _)
  · refine hlies a.ea hn ha fun i hi => ⟨{}, ?_⟩
    rw [byteXlate_untranslated hdr, State.byteEa, maskEa_add_aligned hn ha he hi]

/-- Settles O14: the vector of each exception by the definition of entry, and what entry leaves in the MSR. -/
theorem vectorTable : Obligations.VectorTable := by
  intro e addr s t base offset
  have hbase : base = vectorBase s.cfg (msrIP s.context) := (vectorBase_eq _ _).symm
  have hoffset : offset = e.offset := by cases e <;> rfl
  obtain ⟨-, -, hir, -⟩ := handlerMsr_entryMsr s.cfg e s.msr
  rw [hbase, hoffset]
  exact ⟨rfl, offset_and_low e, msrIP_entryMsr _ _ _, hir, fun h => by rw [State.context_of_closed h]⟩

end

section
/-! Proofs about the encoding (30_encoding.md): the decoder and the encoder are inverse to each other, and what the
effective address and the image of an alignment exception are made of is read from the fields of the word. -/

namespace Sys2Proof

/-! ## Decoding a word built by a format -/

/-- The fields of the other formats are parts of the D-form's immediate. -/
theorem decodeWord_formD (op : BitVec 6) (rt ra : BitVec 5) (d : BitVec 16) :
    decodeWord (formD op rt ra d) = decodeFields op rt ra (d.extractLsb' 11 5) (d.extractLsb' 1 10)
      (d.extractLsb' 0 1) d (d.extractLsb' 2 14) (d.extractLsb' 0 2) := by
  have hfield (start len : Nat) (h : start + len ≤ 16) :
      (formD op rt ra d).extractLsb' start len = d.extractLsb' start len := by
    rw [formD, BitVec.extractLsb'_append_eq_of_add_le h]
  simp only [decodeWord, formD_opcode, formD_target, formD_base, formD_immediate, hfield 11 5 (by decide),
    hfield 1 10 (by decide), hfield 0 1 (by decide), hfield 2 14 (by decide), hfield 0 2 (by decide)]

theorem decodeWord_formDS_load (rt ra : BitVec 5) (ds : BitVec 14) (xo : BitVec 2) :
    decodeWord (formDS 58 rt ra ds xo) = decodeLoadDS rt ra ds xo := by
  simp only [decodeWord, formDS_opcode, formDS_target, formDS_base, formDS_displacement, formDS_extended]
  rfl

theorem decodeWord_formDS_store (rt ra : BitVec 5) (ds : BitVec 14) (xo : BitVec 2) :
    decodeWord (formDS 62 rt ra ds xo) = decodeStoreDS rt ra ds xo := by
  simp only [decodeWord, formDS_opcode, formDS_target, formDS_base, formDS_displacement, formDS_extended]
  rfl

theorem decodeWord_formX (rt ra rb : BitVec 5) (xo : BitVec 10) (rc : BitVec 1) :
    decodeWord (formX 31 rt ra rb xo rc) = decodeX rt ra rb xo rc := by
  simp only [decodeWord, formX_opcode, formX_target, formX_base, formX_index, formX_extended, formX_record]
  rfl

theorem decodeWord_formXL (rt ra rb : BitVec 5) (xo : BitVec 10) (rc : BitVec 1) :
    decodeWord (formX 19 rt ra rb xo rc) = decodeXL rt ra rb xo rc := by
  simp only [decodeWord, formX_opcode, formX_target, formX_base, formX_index, formX_extended, formX_record]
  rfl

/-- The decoder reads from the word of an instruction that instruction: one format at a time. -/
theorem decodeWord_encode (i : Instr) : decodeWord (encode i) = .ok i := by
  cases i with
  | sc => decide
  | rfid | rfi | isync => exact decodeWord_formXL ..
  | mfspr rd n | mtspr n rd =>
    refine (decodeWord_formX ..).trans ?_
    rw [decodeX, sprHigh_append_sprLow]
    rfl
  | ld rt ra ds | ldu rt ra ds | lwa rt ra ds => exact decodeWord_formDS_load ..
  | std rt ra ds | stdu rt ra ds => exact decodeWord_formDS_store ..
  | tdi rt ra d | twi rt ra d | lwz rt ra d | lwzu rt ra d | stw rt ra d | stwu rt ra d | lhz rt ra d
  | lhzu rt ra d | lha rt ra d | lhau rt ra d | sth rt ra d | sthu rt ra d | lmw rt ra d | stmw rt ra d
  | lfs rt ra d | lfsu rt ra d | lfd rt ra d | lfdu rt ra d | stfs rt ra d | stfsu rt ra d | stfd rt ra d
  | stfdu rt ra d | lbz rt ra d | lbzu rt ra d | stb rt ra d | stbu rt ra d => exact decodeWord_formD ..
  | _ => exact decodeWord_formX ..

/-! ## Encoding what the decoder read -/

/-- A field in terms of its number, on which the decoder splits. -/
theorem eq_ofNat_toNat {n : Nat} (x : BitVec n) : x = BitVec.ofNat n x.toNat := by
  rw [BitVec.ofNat_toNat, BitVec.setWidth_eq]

@[simp] theorem checked_eq_ok_iff {ok : Bool} {i j : Instr} :
    checked ok i = .ok j ↔ ok = true ∧ i = j := by
  cases ok <;> simp [checked]

/-- The halves of an SPR number made of two fields are those fields (30 R94). -/
@[simp] theorem sprLow_append (hi lo : BitVec 5) : sprLow (hi ++ lo) = lo := by
  rw [sprLow, BitVec.extractLsb'_append_eq_right]

@[simp] theorem sprHigh_append (hi lo : BitVec 5) : sprHigh (hi ++ lo) = hi := by
  rw [sprHigh, BitVec.extractLsb'_append_eq_left]

theorem encode_of_decodeX {rt ra rb : BitVec 5} {xo : BitVec 10} {rc : BitVec 1} {i : Instr}
    (h : decodeX rt ra rb xo rc = .ok i) : encode i = formX 31 rt ra rb xo rc := by
  have hxo := eq_ofNat_toNat xo
  rw [decodeX] at h
  rw [hxo]
  generalize xo.toNat = n at h ⊢
  split at h <;> simp only [checked_eq_ok_iff, Bool.and_eq_true, beq_iff_eq, reduceCtorEq] at h
  all_goals
    obtain ⟨hfixed, rfl⟩ := h
    simp [encode, hfixed]

theorem encode_of_decodeXL {rt ra rb : BitVec 5} {xo : BitVec 10} {rc : BitVec 1} {i : Instr}
    (h : decodeXL rt ra rb xo rc = .ok i) : encode i = formX 19 rt ra rb xo rc := by
  have hxo := eq_ofNat_toNat xo
  rw [decodeXL] at h
  rw [hxo]
  generalize xo.toNat = n at h ⊢
  split at h <;> simp only [checked_eq_ok_iff, Bool.and_eq_true, beq_iff_eq, reduceCtorEq] at h
  all_goals
    obtain ⟨⟨⟨⟨rfl, rfl⟩, rfl⟩, rfl⟩, rfl⟩ := h
    rfl

theorem encode_of_decodeLoadDS {rt ra : BitVec 5} {ds : BitVec 14} {xo : BitVec 2} {i : Instr}
    (h : decodeLoadDS rt ra ds xo = .ok i) : encode i = formDS 58 rt ra ds xo := by
  have hxo := eq_ofNat_toNat xo
  rw [decodeLoadDS] at h
  rw [hxo]
  generalize xo.toNat = n at h ⊢
  split at h <;> cases h <;> rfl

theorem encode_of_decodeStoreDS {rt ra : BitVec 5} {ds : BitVec 14} {xo : BitVec 2} {i : Instr}
    (h : decodeStoreDS rt ra ds xo = .ok i) : encode i = formDS 62 rt ra ds xo := by
  have hxo := eq_ofNat_toNat xo
  rw [decodeStoreDS] at h
  rw [hxo]
  generalize xo.toNat = n at h ⊢
  split at h <;> cases h <;> rfl

/-- A word that decodes is rebuilt from the fields its primary opcode says it has. The arms of the decoder that are
not D-forms are those of `sc` and of the primary opcodes 19, 31, 58 and 62. -/
theorem encode_of_decodeWord {w : InstWord} {i : Instr} (h : decodeWord w = .ok i) : encode i = w := by
  have hD := formD_fields w
  have hDS := formDS_fields w
  have hX := formX_fields w
  have hop := eq_ofNat_toNat (w.extractLsb' 26 6)
  rw [hop] at hD hDS hX
  rw [decodeWord, decodeFields] at h
  generalize (w.extractLsb' 26 6).toNat = n at h hD hDS hX
  split at h
  case h_3 =>
    simp only [checked_eq_ok_iff, Bool.and_eq_true, beq_iff_eq] at h
    obtain ⟨⟨⟨⟨⟨hrt, hra⟩, hrb⟩, hxo⟩, hrc⟩, rfl⟩ := h
    rw [← hX, hrt, hra, hrb, hxo, hrc]
    rfl
  case h_4 => exact (encode_of_decodeXL h).trans hX
  case h_5 => exact (encode_of_decodeX h).trans hX
  case h_30 => exact (encode_of_decodeLoadDS h).trans hDS
  case h_31 => exact (encode_of_decodeStoreDS h).trans hDS
  all_goals
    cases h <;> exact hD

/-- Decoding and encoding are inverse to each other (30 R96, R98). -/
theorem decodeWord_eq_ok_iff {w : InstWord} {i : Instr} : decodeWord w = .ok i ↔ encode i = w :=
  ⟨encode_of_decodeWord, fun h => h ▸ decodeWord_encode i⟩

end Sys2Proof

namespace Sys2Proof.Machine

/-! ## Effective addresses (30 R93) -/

/-- The effective address that the fields of a word give: the base, and what the primary opcode says is added to
it, in the current address mode (30 R93, 20 R60). -/
def State.wordEa (s : State) (w : InstWord) : Word :=
  let base := s.baseOrZero (w.extractLsb' 16 5)
  let opcode : BitVec 6 := w.extractLsb' 26 6
  let extended : BitVec 10 := w.extractLsb' 1 10
  s.maskEa <|
    if opcode = 31 then
      (if extended = 597 ∨ extended = 725 then base else base + s.readGpr (w.extractLsb' 11 5))
    else if opcode = 58 ∨ opcode = 62 then base + (w.extractLsb' 2 14 ++ 0#2).signExtend 64
    else base + (w.extractLsb' 0 16).signExtend 64

theorem wordEa_formD (s : State) {op : BitVec 6} (rt ra : BitVec 5) (d : BitVec 16)
    (hop : op ∉ [31, 58, 62] := by decide) : s.wordEa (formD op rt ra d) = s.eaD ra d := by
  simp only [List.mem_cons, List.not_mem_nil, or_false, not_or] at hop
  obtain ⟨h31, h58, h62⟩ := hop
  simp only [State.wordEa, formD_opcode, formD_base, formD_immediate, h31, h58, h62, or_self, if_false]
  rfl

theorem wordEa_formDS (s : State) {op : BitVec 6} (rt ra : BitVec 5) (ds : BitVec 14) (xo : BitVec 2)
    (hop : op ∈ [58, 62] := by decide) : s.wordEa (formDS op rt ra ds xo) = s.eaDS ra ds := by
  simp only [List.mem_cons, List.not_mem_nil, or_false] at hop
  obtain rfl | rfl := hop <;> simp [State.wordEa, State.eaDS]

theorem wordEa_formX (s : State) (rt ra rb : BitVec 5) {xo : BitVec 10} (rc : BitVec 1)
    (hxo : xo ∉ [597, 725] := by decide) : s.wordEa (formX 31 rt ra rb xo rc) = s.eaX ra rb := by
  simp only [List.mem_cons, List.not_mem_nil, or_false, not_or] at hxo
  obtain ⟨hload, hstore⟩ := hxo
  simp only [State.wordEa, formX_opcode, formX_base, formX_index, formX_extended, hload, hstore, or_self, if_false]
  rfl

theorem wordEa_formX_immediate (s : State) (rt ra rb : BitVec 5) {xo : BitVec 10} (rc : BitVec 1)
    (hxo : xo ∈ [597, 725] := by decide) : s.wordEa (formX 31 rt ra rb xo rc) = s.eaBase ra := by
  simp only [List.mem_cons, List.not_mem_nil, or_false] at hxo
  obtain rfl | rfl := hxo <;> simp [State.wordEa, State.eaBase]

theorem nonzeroString_eq_some {i : Instr} {store : Bool} {n : Nat} {ea : Word} {a : Access}
    (h : nonzeroString i store n ea = some a) : a = stringAccess i store n ea := by
  rw [nonzeroString] at h
  split at h <;> cases h
  rfl

/-- The access of a storage instruction is at the address the fields of its word give: one format at a time. -/
theorem accessOf_ea {s : State} {i : Instr} {a : Access} (h : accessOf s i = some a) :
    a.ea = s.wordEa (encode i) := by
  cases i with
  | tdi | twi | sc | rfid | rfi | isync | tw | td | mfmsr | mtmsr | mtmsrd | mfspr | mtspr | sync => cases h
  | lswx rt ra rb | stswx rt ra rb => exact nonzeroString_eq_some h ▸ (wordEa_formX ..).symm
  | lswi rt ra nb | stswi rt ra nb => exact nonzeroString_eq_some h ▸ (wordEa_formX_immediate ..).symm
  | ld rt ra ds | ldu rt ra ds | lwa rt ra ds | std rt ra ds | stdu rt ra ds =>
    cases h
    exact (wordEa_formDS ..).symm
  | lwz rt ra d | lwzu rt ra d | stw rt ra d | stwu rt ra d | lhz rt ra d | lhzu rt ra d | lha rt ra d
  | lhau rt ra d | sth rt ra d | sthu rt ra d | lmw rt ra d | stmw rt ra d | lfs rt ra d | lfsu rt ra d
  | lfd rt ra d | lfdu rt ra d | stfs rt ra d | stfsu rt ra d | stfd rt ra d | stfdu rt ra d | lbz rt ra d
  | lbzu rt ra d | stb rt ra d | stbu rt ra d =>
    cases h
    exact (wordEa_formD ..).symm
  | _ =>
    cases h
    exact (wordEa_formX ..).symm

/-! ## The opcode bits of an alignment exception's image (61 R314) -/

/-- A part of a field of a word is a part of the word. -/
theorem extractLsb'_field {n start len o l : Nat} (w : BitVec n) (h : o + l ≤ len) :
    w.extractLsb' (start + o) l = (w.extractLsb' start len).extractLsb' o l := by
  ext i hi
  simp [show o + i < len by omega, Nat.add_assoc]

/-- Of an X-form of primary opcode 31: word bits 29, 30, 25 and 21 to 24, all of the extended opcode. -/
theorem imageOpcode_formX (rt ra rb : BitVec 5) (xo : BitVec 10) (rc : BitVec 1) :
    imageOpcode (formX 31 rt ra rb xo rc) =
      0#3 ++ xo.extractLsb' 0 2 ++ xo.extractLsb' 5 1 ++ xo.extractLsb' 6 4 := by
  have hfield (o l : Nat) (h : o + l ≤ 10) :
      (formX 31 rt ra rb xo rc).extractLsb' (1 + o) l = xo.extractLsb' o l := by
    rw [extractLsb'_field _ h, formX_extended]
  rw [imageOpcode, formX_opcode, if_pos rfl, if_neg (by decide), hfield 0 2 (by decide), hfield 5 1 (by decide),
    hfield 6 4 (by decide)]
  rfl

/-- Of a D-form: word bits 5 and 1 to 4, all of the primary opcode. -/
theorem imageOpcode_formD {op : BitVec 6} (rt ra : BitVec 5) (d : BitVec 16)
    (hop : op ∉ [31, 58, 62] := by decide) :
    imageOpcode (formD op rt ra d) = 0#5 ++ op.extractLsb' 0 1 ++ op.extractLsb' 1 4 := by
  have hfield (o l : Nat) (h : o + l ≤ 6) :
      (formD op rt ra d).extractLsb' (26 + o) l = op.extractLsb' o l := by
    rw [extractLsb'_field _ h, formD_opcode]
  simp only [List.mem_cons, List.not_mem_nil, or_false, not_or] at hop
  obtain ⟨h31, h58, h62⟩ := hop
  rw [imageOpcode, formD_opcode, if_neg h31, if_neg (not_or.2 ⟨h58, h62⟩), hfield 0 1 (by decide),
    hfield 1 4 (by decide)]
  rfl

/-- Of a DS-form: the sub-opcode, and word bits 5 and 1 to 4. -/
theorem imageOpcode_formDS {op : BitVec 6} (rt ra : BitVec 5) (ds : BitVec 14) (xo : BitVec 2)
    (hop : op ∈ [58, 62] := by decide) :
    imageOpcode (formDS op rt ra ds xo) = xo ++ 0#3 ++ op.extractLsb' 0 1 ++ op.extractLsb' 1 4 := by
  have hfield (o l : Nat) (h : o + l ≤ 6) :
      (formDS op rt ra ds xo).extractLsb' (26 + o) l = op.extractLsb' o l := by
    rw [extractLsb'_field _ h, formDS_opcode]
  simp only [List.mem_cons, List.not_mem_nil, or_false] at hop
  have h31 : op ≠ 31 := by rintro rfl; revert hop; decide
  rw [imageOpcode, formDS_opcode, formDS_extended, if_neg h31, if_pos hop, hfield 0 1 (by decide),
    hfield 1 4 (by decide)]
  rfl

/-! ## The fields of an alignment exception's image (61 R314) -/

theorem accessOf_instr {s : State} {i : Instr} {a : Access} (h : accessOf s i = some a) : a.instr = i := by
  cases i with
  | lswx | stswx | lswi | stswi => exact nonzeroString_eq_some h ▸ rfl
  | _ => cases h <;> rfl

/-- Of the multiples and strings the loads record the base field (93 U6). -/
theorem namesBase_of_load {s : State} {i : Instr} {a : Access} (h : accessOf s i = some a)
    (hload : a.store = false) (hcls : a.cls = .multiple ∨ a.cls = .string) : namesBase i = true := by
  cases i with
  | lmw | lswi | lswx => rfl
  | stswx | stswi => cases nonzeroString_eq_some h ▸ hload
  | _ => cases h <;> rcases hcls with hcls | hcls <;> cases hcls <;> cases hload

/-- The image is four fields: zeros, the opcode bits of the instruction or of its pair (93 U5), the target field, and
the base. -/
theorem alignImage_fields (s : State) (a : Access) : ∃ (own : BitVec 10) (target : BitVec 5),
    s.alignImage a = 0#12 ++ own ++ target ++ s.imageBase a ∧
      (own = imageOpcode (encode a.instr) ∨ (s.cfg.dsisrAlternatives = true ∧
        ∃ p, a.instr.pair = some p ∧ own = imageOpcode (encode p))) ∧
      (a.cls ≠ .dcbz → target = (encode a.instr).extractLsb' 21 5) := by
  refine ⟨_, _, rfl, ?_, fun h => by simp [h]⟩
  cases hpair : a.instr.pair with
  | none => exact .inl rfl
  | some p =>
    dsimp only
    split
    next h => exact .inr ⟨(Bool.and_eq_true_iff.1 h).1, p, rfl, rfl⟩
    next => exact .inl rfl

/-- Each field of an image reads back. -/
theorem image_fields (high : BitVec 12) (own : BitVec 10) (target base : BitVec 5) :
    let d := high ++ own ++ target ++ base
    d.extractLsb' 20 12 = high ∧ d.extractLsb' 10 10 = own ∧ d.extractLsb' 5 5 = target ∧
      d.extractLsb' 0 5 = base := by
  refine ⟨?_, ?_, ?_, BitVec.extractLsb'_append_eq_right⟩
  · rw [BitVec.extractLsb'_append_eq_of_le (by decide), BitVec.extractLsb'_append_eq_of_le (by decide)]
    exact BitVec.extractLsb'_append_eq_left
  · rw [BitVec.extractLsb'_append_eq_of_le (by decide), BitVec.extractLsb'_append_eq_of_le (by decide)]
    exact BitVec.extractLsb'_append_eq_right
  · rw [BitVec.extractLsb'_append_eq_of_le (by decide)]
    exact BitVec.extractLsb'_append_eq_right

/-- An update form records its base field (61 R314). -/
theorem imageBase_update {s : State} {a : Access} (h : namesBase a.instr = true) (hmultiple : a.cls ≠ .multiple)
    (hstring : a.cls ≠ .string) : s.imageBase a = (encode a.instr).extractLsb' 16 5 := by
  rw [State.imageBase, if_pos h]
  split
  next hcls => exact absurd hcls hmultiple
  next hcls => exact absurd hcls hstring
  next => rfl

/-- A multiple or string loaded records its base field or a register that it does not load (93 U6). -/
theorem imageBase_load {s : State} {a : Access} (h : namesBase a.instr = true)
    (hcls : a.cls = .multiple ∨ a.cls = .string) :
    s.imageBase a = (encode a.instr).extractLsb' 16 5 ∨ (s.cfg.dsisrAlternatives = true ∧
      a.words ≤ (s.imageBase a - (encode a.instr).extractLsb' 21 5).toNat) := by
  rw [State.imageBase, if_pos h]
  rcases hcls with hcls | hcls <;> rw [hcls] <;> dsimp only <;> split
  case inl.isTrue hdrawn | inr.isTrue hdrawn =>
    obtain ⟨halternatives, hwords⟩ := Bool.and_eq_true_iff.1 hdrawn
    exact .inr ⟨halternatives, of_decide_eq_true hwords⟩
  case inl.isFalse | inr.isFalse => exact .inl rfl

end Sys2Proof.Machine

open Sys2Proof Sys2Proof.Machine

/-- Settles O2: the bytes of a word are the word, which decodes to the instruction it encodes. -/
theorem decodeInvertsEncode : Obligations.DecodeInvertsEncode := by
  intro i rest
  rw [decode_bytesOfWord, decodeWord_encode]
  rfl

/-- Settles O3: one format at a time, the decoder accepts a word only where its fields are those of the encoding. -/
theorem encodeInvertsDecode : Obligations.EncodeInvertsDecode :=
  fun _ _ => encode_of_decodeWord

/-- Settles O1: the words accepted are the encodings of the instructions listed, and the two rejected have a
nonzero or a missing fixed bit. -/
theorem listedWordsDecode : Obligations.ListedWordsDecode := by
  unfold Obligations.ListedWordsDecode
  simp only [decodeWord_eq_ok_iff]
  decide

/-- Settles O29: what the fields of the word give is `State.wordEa`, and each format's address is that. -/
theorem effectiveAddresses : Obligations.EffectiveAddresses :=
  fun _ _ _ => accessOf_ea

/-- Settles O52: the opcode bits are computed from the format alone, and the other fields of an image read back. -/
theorem dsisrFields : Obligations.DsisrFields := by
  refine ⟨fun r ra rb nb d ds => ?_, fun s i a h => ?_⟩
  · simp (disch := decide) only [encode, imageOpcode_formX, imageOpcode_formDS, imageOpcode_formD]
    and_intros <;> decide
  · obtain ⟨own, target, himage, hown, htarget⟩ := alignImage_fields s a
    obtain ⟨hhigh, hopcode, hrD, hrA⟩ := image_fields 0#12 own target (s.imageBase a)
    obtain rfl := accessOf_instr h
    dsimp only
    rw [himage, hhigh, hopcode, hrD, hrA]
    exact ⟨rfl, hown, htarget, imageBase_update, fun hload hcls =>
      imageBase_load (namesBase_of_load h hload hcls) hcls⟩

end

section
/-! Proofs about the system instructions (40_system_instructions.md): traps, the return from an exception, the moves
to and from the MSR with the context they leave, and the moves to and from the special-purpose registers. -/

namespace Sys2Proof.Machine

/-! ## Admission -/

/-- In supervisor mode a provided instruction of valid form that is not floating-point is admitted. -/
theorem admit_supervisor {i : Instr} {s : State} (hp : i.provided s.cfg = true) (hv : i.validForm = true)
    (hf : i.isFloat = false) (h : msrPR s.context = false) (k : State → Result) : whenAdmitted i s k = k s :=
  admit_pass hp hv (by rw [h, Bool.and_false]) (by rw [hf, Bool.false_and])

/-! ## Bits chosen by a mask -/

/-- Of the bits of `a` where the mask is set and those of `b` elsewhere. -/
theorem getMsbD_select (mask a b : Word) (k : Nat) : ((a &&& mask) ||| (b &&& ~~~mask)).getMsbD k =
    if mask.getMsbD k then a.getMsbD k else b.getMsbD k := by
  by_cases hk : k < 64
  · simp only [BitVec.getMsbD_or, BitVec.getMsbD_and, BitVec.getMsbD_not, hk, decide_true, Bool.true_and]
    cases mask.getMsbD k <;> simp
  · simp [BitVec.getMsbD_of_ge _ _ (Nat.le_of_not_lt hk)]

/-- A register that holds `held` reads as `read`: the bits of `mask` as they are, each other bit as held or 0 (10 R33,
R34). -/
def ReadsMasked (mask held read : Word) : Prop :=
  read = held ∨ ∃ free, read = held &&& (mask ||| free)

theorem ReadsMasked.and_mask {mask held read : Word} (h : ReadsMasked mask held read) :
    read &&& mask = held &&& mask := by
  obtain rfl | ⟨free, rfl⟩ := h
  · rfl
  · have habsorb : (mask ||| free) &&& mask = mask := by
      ext i hi
      simpa using Or.inl
    rw [BitVec.and_assoc, habsorb]

theorem ReadsMasked.and_not_held {mask held read : Word} (h : ReadsMasked mask held read) :
    read &&& ~~~held = 0 := by
  obtain rfl | ⟨free, rfl⟩ := h
  · exact BitVec.and_not_self _
  · rw [and_swap, BitVec.and_not_self]
    exact BitVec.zero_and

/-! ## Returning from an exception (40 R111 to R113) -/

theorem getMsbD_restoredMsr (mask msr srr1 : Word) (k : Nat) : (restoredMsr mask msr srr1).getMsbD k =
    if mask.getMsbD k then srr1.getMsbD k else msr.getMsbD k := by
  rw [restoredMsr, BitVec.or_comm, getMsbD_select]

/-- The bits `rfi` copies (40 R111). -/
theorem getMsbD_returnMask : ∀ k < 64,
    (returnMask.getMsbD k = true ↔ k = 32 ∨ (37 ≤ k ∧ k ≤ 41) ∨ 48 ≤ k) := by decide

/-- The bits `rfid` copies (40 R113). -/
theorem getMsbD_returnMask_or_maskSF : ∀ k < 64,
    ((returnMask ||| maskSF).getMsbD k = true ↔ k = 0 ∨ k = 32 ∨ (37 ≤ k ∧ k ≤ 41) ∨ 48 ≤ k) := by decide

theorem returnTarget_eq (c : Config) (m a : Word) :
    returnTarget c m a = if c.is64 && msrSF m then a &&& ~~~3 else a &&& 0xFFFFFFFC := by
  rw [returnTarget, addressIn, low32, BitVec.and_assoc]
  rfl

/-- A return writes the MSR and NIA alone, and closes the window. -/
theorem returnFrom_frame (mask : Word) (s : State) : returnFrom mask s =
    { s with msr := (returnFrom mask s).msr, nia := (returnFrom mask s).nia, window := [] } := rfl

theorem exec_rfi_supervisor {s : State} (hp : Instr.rfi.provided s.cfg = true) (h : msrPR s.context = false) :
    exec .rfi s = .next (returnFrom returnMask s) := by
  rw [exec_rfi, execRfi, admit_supervisor hp rfl rfl h]

theorem exec_rfid_supervisor {s : State} (h64 : s.cfg.is64 = true) (h : msrPR s.context = false) :
    exec .rfid s = .next (returnFrom (returnMask ||| maskSF) s) := by
  rw [exec_rfid, execRfid, admit_supervisor (i := .rfid) h64 rfl rfl h]

/-! ## The MSR value in force -/

/-- Each bit in force is that of the latest value or of an earlier one. -/
theorem getMsbD_mixContext (n k : Nat) (l : List Word) (cur : Word) :
    (mixContext n cur l).getMsbD k = cur.getMsbD k ∨
      ∃ old ∈ l, (mixContext n cur l).getMsbD k = old.getMsbD k := by
  induction l generalizing cur with
  | nil => exact .inl rfl
  | cons old rest ih =>
    rw [mixContext]
    obtain h | ⟨w, hw, h⟩ := ih _
    · rw [h, getMsbD_select]
      split
      · exact .inl rfl
      · exact .inr ⟨old, List.mem_cons_self, rfl⟩
    · exact .inr ⟨w, List.mem_cons_of_mem _ hw, h⟩

/-- `ISF` is never held back (10 R22). -/
theorem msrISF_mixContext (n : Nat) (l : List Word) (cur : Word) :
    msrISF (mixContext n cur l) = msrISF cur := by
  induction l generalizing cur with
  | nil => rfl
  | cons old rest ih =>
    have hISF : (Config.freeWord .context n rest.length ||| maskISF).getMsbD 2 = true := by
      rw [BitVec.getMsbD_or, show maskISF.getMsbD 2 = true by decide, Bool.or_true]
    rw [mixContext, ih, msrISF, getMsbD_select, if_pos hISF, msrISF]

/-! ## Moves to a general register -/

/-- An instruction that does nothing but move `v` to `rd` leaves everything else as it was. -/
theorem setGpr_complete_frame (s : State) (rd : Reg) (v : Word) : let t := (s.setGpr rd v).complete
    t = { s with gpr := t.gpr, nia := s.maskEa (s.cia + 4) } ∧ GprsBut s t [rd] ∧
      t.readGpr rd = truncXlen s.cfg v :=
  ⟨rfl, fun _ hr => State.readGpr_setGpr_other s v (List.ne_of_not_mem_cons hr),
    State.readGpr_setGpr_same s rd v⟩

/-! ## Moves to and from the MSR (40 R114 to R116) -/

theorem exec_mfmsr_supervisor {s : State} (rd : Reg) (h : msrPR s.context = false) :
    exec (.mfmsr rd) s = .next (s.setGpr rd s.readMsr).complete := by
  rw [exec_mfmsr, execMfmsr, admit_supervisor rfl rfl rfl h]

theorem exec_mtmsr_supervisor {s : State} {rs : Reg} (hp : Instr.provided s.cfg (.mtmsr rs) = true)
    (h : msrPR s.context = false) : exec (.mtmsr rs) s =
      .next (s.complete.writeMsr ((s.msr &&& ~~~0xFFFFFFFF) ||| low32 (s.readGpr rs))) := by
  rw [exec_mtmsr, execMtmsr, admit_supervisor hp rfl rfl h]

theorem exec_mtmsrd_supervisor {s : State} (rs : Reg) (h64 : s.cfg.is64 = true)
    (h : msrPR s.context = false) :
    exec (.mtmsrd rs) s = .next (s.complete.writeMsr (s.readGpr rs)) := by
  rw [exec_mtmsrd, execMtmsrd, admit_supervisor (i := .mtmsrd rs) h64 rfl rfl h]

theorem exec_isync_complete (s : State) : exec .isync s = .next { s.complete with window := [] } := by
  rw [exec_isync, execIsync, admit_plain rfl rfl rfl rfl]

theorem exec_sync_complete (s : State) : exec .sync s = .next s.complete := by
  rw [exec_sync, execSync, admit_plain rfl rfl rfl rfl]

theorem readMsr_readsMasked (s : State) : ReadsMasked (definedMask s.cfg) s.msr s.readMsr := by
  unfold State.readMsr
  dsimp only
  split
  · exact .inl rfl
  · exact .inr ⟨s.freeWord .msrRead 0, by rw [BitVec.not_not]⟩

/-- The width of the registers is a mask like any other. -/
theorem truncXlen_and (c : Config) (v m : Word) : truncXlen c v &&& m = truncXlen c (v &&& m) := by
  unfold truncXlen low32
  split
  · rfl
  · exact and_swap _ _ _

@[simp] theorem truncXlen_zero (c : Config) : truncXlen c 0 = 0 := by
  unfold truncXlen low32
  split <;> rfl

/-! ## Moves to and from the special-purpose registers (40 R117, R118) -/

theorem sprOf_ear {c : Config} (h : c.hasExtControl = true) : sprOf c 282 = some .ear := if_pos h

theorem sprOf_dabr {c : Config} (h : c.hasDabr = true) : sprOf c 1013 = some .dabr := if_pos h

/-- A move of a defined number, not one of supervisor level in user mode, is of its register. -/
theorem withSpr_defined {i : Instr} {n : SprNum} {s : State} {r : Spr} (hp : i.provided s.cfg = true)
    (hv : i.validForm = true) (hu : i.privileged = false) (hf : i.isFloat = false)
    (hn : sprOf s.cfg n = some r) (hm : (sprSupervisor n && msrPR s.context) = false)
    (k : Spr → State → Result) : withSpr i n s k = k r s := by
  rw [withSpr, admit_plain hp hv hu hf, hm, if_neg Bool.false_ne_true, hn]

theorem exec_mfspr_defined {n : SprNum} {s : State} {r : Spr} (rd : Reg) (hn : sprOf s.cfg n = some r)
    (hm : (sprSupervisor n && msrPR s.context) = false) :
    exec (.mfspr rd n) s = .next (s.setGpr rd (s.readSpr r)).complete := by
  rw [exec_mfspr, execMfspr, withSpr_defined rfl rfl rfl rfl hn hm]

theorem exec_mtspr_defined {n : SprNum} {s : State} {r : Spr} (rs : Reg) (hn : sprOf s.cfg n = some r)
    (hm : (sprSupervisor n && msrPR s.context) = false) :
    exec (.mtspr n rs) s = .next (s.writeSpr r (s.readGpr rs)).complete := by
  rw [exec_mtspr, execMtspr, withSpr_defined rfl rfl rfl rfl hn hm]

/-- `mfspr` of number `n` completes with `v` in `rd`, as wide as the register is. -/
def ReadsSpr (s : State) (rd : Reg) (n : SprNum) (v : Word) : Prop :=
  ∃ t, exec (.mfspr rd n) s = .next t ∧ t = { s with gpr := t.gpr, nia := s.maskEa (s.cia + 4) } ∧
    GprsBut s t [rd] ∧ t.readGpr rd = truncXlen s.cfg v

theorem readsSpr_defined {n : SprNum} {s : State} {r : Spr} (rd : Reg) (hn : sprOf s.cfg n = some r)
    (hm : (sprSupervisor n && msrPR s.context) = false) : ReadsSpr s rd n (s.readSpr r) :=
  ⟨_, exec_mfspr_defined rd hn hm, setGpr_complete_frame s rd _⟩

theorem readSrr0_of_aligned {s : State} (h : s.srr0 &&& 3 = 0) : s.readSrr0 = s.srr0 := if_pos h

/-- A read of SRR0 may leave out its two low-order bits (10 R34). -/
theorem readSrr0_readsMasked (s : State) : ReadsMasked (~~~3) s.srr0 s.readSrr0 := by
  unfold State.readSrr0
  split
  · exact .inl rfl
  · exact .inr ⟨_, rfl⟩

/-! ## Traps (40 R119 to R123) -/

/-- A trap instruction takes the trap exception if its condition holds and else goes on; nothing else changes. -/
def TrapsIf (s : State) (i : Instr) (holds : Bool) : Prop :=
  (holds = true → ∃ t, exec i s = .next t ∧
    TakenFrom s t (.program .trap false) s.cia ∧ EntryFrame s t ∧
    t.srr1 &&& 0x783F0000 = 0x00020000 ∧
    t.nia = vectorBase s.cfg (msrIP s.context) + 0x700 ∧
    t.decPending = s.decPending ∧ t.sresetReq = s.sresetReq ∧ t.mcheckReq = s.mcheckReq) ∧
  (holds = false → exec i s = .next { s with nia := s.maskEa (s.cia + 4) })

theorem trapsIf_of_trapOn {i : Instr} {s : State} {cond : TrapTo} {x y : Word}
    (hexec : exec i s = trapOn i cond x y s) (hp : i.provided s.cfg = true) (hv : i.validForm = true)
    (hu : i.privileged = false) (hf : i.isFloat = false) : TrapsIf s i (trapCond cond x y) := by
  rw [trapOn, admit_plain hp hv hu hf] at hexec
  refine ⟨fun htrap => ?_, fun hpass => ?_⟩
  · rw [if_pos htrap, raise] at hexec
    have hinfo := saveImage_information s.cfg (.program .trap false) s.msr
    exact ⟨takeException (.program .trap false) s.cia s, hexec, takeException_takenFrom _ _ s,
      takeException_entryFrame _ _ s, hinfo.trans (by decide), takeException_nia _ _ s,
      takeException_decPending _ _ s, takeException_sresetReq _ _ s, takeException_mcheckReq _ _ s⟩
  · rw [hexec, hpass]
    rfl

/-- The low-order word of an operand, sign-extended (40 R119). -/
theorem wordOperand_eq (v : Word) : wordOperand v = (v.extractLsb' 0 32).signExtend 64 :=
  congrArg (BitVec.signExtend 64) (BitVec.setWidth_eq_extractLsb' (by decide))

end Sys2Proof.Machine

open Sys2Proof Sys2Proof.Machine

/-- Settles O19: the masks of `rfi` and `rfid`, read bit by bit, and the target in the mode returned to. -/
theorem returnRestores : Obligations.ReturnRestores := by
  intro s hpr
  refine ⟨fun hp => ⟨_, exec_rfi_supervisor hp hpr, returnFrom_frame _ s, returnTarget_eq _ _ _, fun k hk => ?_⟩,
    fun h64 => ⟨_, exec_rfid_supervisor h64 hpr, returnFrom_frame _ s, ?_, fun k hk => ?_⟩⟩
  · simp only [returnFrom_msr, getMsbD_restoredMsr, getMsbD_returnMask k hk]
  · rw [returnFrom_nia, returnFrom_msr, returnTarget_eq, h64, Bool.true_and]
  · simp only [returnFrom_msr, getMsbD_restoredMsr, getMsbD_returnMask_or_maskSF k hk]

/-- Settles O22: a read of the MSR keeps every defined bit and sets none. -/
theorem readMsr : Obligations.ReadMsr := by
  intro s rd hpr
  obtain ⟨hframe, hothers, hrd⟩ := setGpr_complete_frame s rd s.readMsr
  refine ⟨_, exec_mfmsr_supervisor rd hpr, hframe, hothers, ?_, ?_⟩
  · rw [hrd, truncXlen_and, (readMsr_readsMasked s).and_mask, truncXlen_and]
  · rw [hrd, truncXlen_and, (readMsr_readsMasked s).and_not_held, truncXlen_zero]

/-- Settles O23: what each instruction leaves, and each bit in force traced through the window. -/
theorem msrWritesTakeEffect : Obligations.MsrWritesTakeEffect := by
  intro s rs window
  exact ⟨fun hpr => ⟨fun hp => exec_mtmsr_supervisor hp hpr, fun h64 => exec_mtmsrd_supervisor rs h64 hpr⟩,
    fun k => getMsbD_mixContext s.draws k s.window s.msr, msrISF_mixContext s.draws s.window s.msr,
    State.context_of_closed, ⟨_, exec_isync_complete s, rfl, State.context_of_closed rfl⟩,
    exec_sync_complete s⟩

/-- Settles O21: the condition decides between the entry and the next instruction. -/
theorem traps : Obligations.Traps := by
  intro s cond ra rb simm holds runs low
  have htw := trapsIf_of_trapOn (exec_tw cond ra rb s) rfl rfl rfl rfl
  have htwi := trapsIf_of_trapOn (exec_twi cond ra simm s) rfl rfl rfl rfl
  simp only [wordOperand_eq] at htw htwi
  exact ⟨htw, htwi, fun h64 => ⟨trapsIf_of_trapOn (exec_td cond ra rb s) h64 rfl rfl rfl,
    trapsIf_of_trapOn (exec_tdi cond ra simm s) h64 rfl rfl rfl⟩⟩

/-- Settles O24: each number is that of its register, and of SRR0 two bits may read as 0. -/
theorem readSpr : Obligations.ReadSpr := by
  intro s rd reads
  refine ⟨readsSpr_defined (r := .xer) rd rfl rfl, fun hpr => ?_⟩
  have hreads {n : SprNum} {r : Spr} (hn : sprOf s.cfg n = some r) : reads n (s.readSpr r) :=
    readsSpr_defined rd hn (by rw [hpr, Bool.and_false])
  have hsrr0 : reads 26 s.readSrr0 := hreads (r := .srr0) rfl
  have hmasked := readSrr0_readsMasked s
  exact ⟨hreads (r := .dsisr) rfl, hreads (r := .dar) rfl, hreads (r := .dec) rfl,
    fun h => readSrr0_of_aligned h ▸ hsrr0, ⟨_, hmasked.and_mask, hmasked.and_not_held, hsrr0⟩,
    hreads (r := .srr1) rfl, fun h => hreads (sprOf_ear h), fun h => hreads (sprOf_dabr h)⟩

/-- Settles O25: each number is that of its register, and DEC alone has an effect beside its own. -/
theorem writeSpr : Obligations.WriteSpr := by
  intro s rs v w x next
  have hw : w = v.setWidth 32 := (BitVec.setWidth_eq_extractLsb' (by decide)).symm
  rw [hw]
  refine ⟨exec_mtspr_defined (r := .xer) rs rfl rfl, fun hpr => ?_⟩
  have hwrites {n : SprNum} {r : Spr} (hn : sprOf s.cfg n = some r) :
      exec (.mtspr n rs) s = .next (s.writeSpr r v).complete :=
    exec_mtspr_defined rs hn (by rw [hpr, Bool.and_false])
  exact ⟨hwrites (r := .dsisr) rfl, hwrites (r := .dar) rfl, exec_mtspr_dec rs hpr, hwrites (r := .srr0) rfl,
    hwrites (r := .srr1) rfl, fun h => hwrites (sprOf_ear h), fun h => hwrites (sprOf_dabr h)⟩

end

section
/-! Proofs about the storage instructions (41_storage_instruction_classes.md and
42_storage_instruction_classes_indexed.md): what each class of them leaves where its access is clear, and which class
each instruction belongs to. -/

namespace Sys2Proof.Machine

/-! ## Completing -/

/-- An instruction makes one access, so only that one has to be looked at. -/
theorem completesAt_of_access {s : State} {i : Instr} {a : Access} {post : Access → State → Prop}
    (hacc : accessOf s i = some a) (h : clear s a = true → ∃ t, exec i s = .next t ∧ post a t) :
    CompletesAt s i post := by
  intro b hb hc
  obtain rfl : a = b := Option.some.inj (hacc.symm.trans hb)
  exact h hc

/-- The effective address of a storage instruction fits a register. -/
theorem fits_accessOf_ea {s : State} {i : Instr} {a : Access} (h : accessOf s i = some a) :
    fits s.cfg a.ea = true :=
  accessOf_ea h ▸ fits_maskEa s _

@[simp] theorem State.readGpr_finish (s : State) (r : Reg) : s.finish.readGpr r = s.readGpr r := by
  simp [State.readGpr]

/-! ## Elementary loads and stores -/

section
variable {s : State} {i : Instr} {n : Nat} {ea : Word}

theorem completesAt_loadInt {conv : Word → Word} {rd : Reg}
    (hexec : exec i s = loadInt i n conv rd none ea s) (hacc : accessOf s i = some (intAccess i false n ea))
    (hadm : ∀ k, whenAdmitted i s k = k s) :
    CompletesAt s i fun a t => LoadsGpr s t rd (conv (s.operand a)) :=
  completesAt_of_access hacc fun hc => hexec ▸ loadInt_clear hadm hc

theorem completesAt_loadInt_update {conv : Word → Word} {rd ra : Reg} (hne : ra ≠ rd)
    (hexec : exec i s = loadInt i n conv rd (some ra) ea s)
    (hacc : accessOf s i = some (intAccess i false n ea)) (hadm : ∀ k, whenAdmitted i s k = k s) :
    CompletesAt s i fun a t => LoadsGprUpdating s t rd (conv (s.operand a)) ra a.ea :=
  completesAt_of_access hacc fun hc => hexec ▸ loadInt_update_clear hadm hc hne (fits_accessOf_ea hacc)

theorem completesAt_loadFloat {conv : Word → Word} {frd : FReg}
    (hexec : exec i s = loadFloat i n conv frd none ea s)
    (hacc : accessOf s i = some (floatAccess i false n ea)) (hadm : ∀ k, whenAdmitted i s k = k s) :
    CompletesAt s i fun a t => LoadsFpr s t frd (conv (s.operand a)) :=
  completesAt_of_access hacc fun hc => hexec ▸ loadFloat_clear hadm hc

theorem completesAt_loadFloat_update {conv : Word → Word} {frd : FReg} {ra : Reg}
    (hexec : exec i s = loadFloat i n conv frd (some ra) ea s)
    (hacc : accessOf s i = some (floatAccess i false n ea)) (hadm : ∀ k, whenAdmitted i s k = k s) :
    CompletesAt s i fun a t => LoadsFprUpdating s t frd (conv (s.operand a)) ra a.ea :=
  completesAt_of_access hacc fun hc => hexec ▸ loadFloat_update_clear hadm hc (fits_accessOf_ea hacc)

variable {v : Word} (hm : s.mem.wf = true)
include hm

theorem completesAt_storeInt (hexec : exec i s = storeInt i n v none ea s)
    (hacc : accessOf s i = some (intAccess i true n ea)) (hadm : ∀ k, whenAdmitted i s k = k s) :
    CompletesAt s i fun a t => StoresBytes s t a (valueByte s n v) :=
  completesAt_of_access hacc fun hc => hexec ▸ storeInt_clear hadm hc hm

theorem completesAt_storeInt_update {ra : Reg} (hexec : exec i s = storeInt i n v (some ra) ea s)
    (hacc : accessOf s i = some (intAccess i true n ea)) (hadm : ∀ k, whenAdmitted i s k = k s) :
    CompletesAt s i fun a t => StoresBytesUpdating s t a (valueByte s n v) ra :=
  completesAt_of_access hacc fun hc => hexec ▸ storeInt_update_clear hadm hc hm (fits_accessOf_ea hacc)

theorem completesAt_storeFloat (hexec : exec i s = storeFloat i n v none ea s)
    (hacc : accessOf s i = some (floatAccess i true n ea)) (hadm : ∀ k, whenAdmitted i s k = k s) :
    CompletesAt s i fun a t => StoresBytes s t a (valueByte s n v) :=
  completesAt_of_access hacc fun hc => hexec ▸ storeFloat_clear hadm hc hm

theorem completesAt_storeFloat_update {ra : Reg} (hexec : exec i s = storeFloat i n v (some ra) ea s)
    (hacc : accessOf s i = some (floatAccess i true n ea)) (hadm : ∀ k, whenAdmitted i s k = k s) :
    CompletesAt s i fun a t => StoresBytesUpdating s t a (valueByte s n v) ra :=
  completesAt_of_access hacc fun hc => hexec ▸ storeFloat_update_clear hadm hc hm (fits_accessOf_ea hacc)

end

/-- The algebraic half word is the sign-extended low-order half word of the operand. -/
theorem signHalf_eq (v : Word) : signHalf v = (v.extractLsb' 0 16).signExtend 64 :=
  congrArg (BitVec.signExtend 64) (BitVec.setWidth_eq_extractLsb' (by decide))

/-- The algebraic word is the sign-extended low-order word of the operand. -/
theorem signWord_eq (v : Word) : signWord v = (v.extractLsb' 0 32).signExtend 64 := wordOperand_eq v

/-! ## Byte reversal (41 R180 to R183) -/

/-- The low-order byte of a word, as a word. -/
theorem setWidth_byte (v : Word) : (v.setWidth 8).setWidth 64 = v &&& 0xFF := by
  have hmask : ∀ k < 64, (0xFF : Word).getLsbD k = decide (k < 8) := by decide
  refine BitVec.eq_of_getLsbD_eq fun k hk => ?_
  rw [BitVec.getLsbD_and, hmask k hk, Bool.and_comm]
  simp [hk]

theorem shiftLeft_and_ushiftRight (v m : Word) (p : Nat) : (v >>> p &&& m) <<< p = v &&& m <<< p := by
  refine BitVec.eq_of_getLsbD_eq fun k hk => ?_
  by_cases h : k < p
  · simp [h]
  · simp [h, show p + (k - p) = k by omega, hk]

/-- `lwbrx`: the two inner bytes change places, and so do the two outer ones. -/
theorem byteReverse_word (v : Word) : byteReverse 4 v =
    ((v &&& 0xFF) <<< 24) ||| ((v &&& 0xFF00) <<< 8) ||| ((v >>> 8) &&& 0xFF00) ||| ((v >>> 24) &&& 0xFF) := by
  have hbytes : byteReverse 4 v = ofBytes [(v >>> 0).setWidth 8, (v >>> 8).setWidth 8,
    (v >>> 16).setWidth 8, (v >>> 24).setWidth 8] := rfl
  have hsecond : (v >>> 8 &&& 0xFF) <<< 16 = (v &&& 0xFF00) <<< 8 := by
    rw [BitVec.shiftLeft_add _ 8 8, shiftLeft_and_ushiftRight]; rfl
  have hthird : (v >>> 16 &&& 0xFF) <<< 8 = v >>> 8 &&& 0xFF00 := by
    rw [BitVec.shiftRight_add v 8 8, shiftLeft_and_ushiftRight]; rfl
  rw [hbytes, ofBytes_four]
  simp only [setWidth_byte, hsecond, hthird, BitVec.ushiftRight_zero, Nat.cast_ofNat]

/-- `lhbrx`: the two bytes change places. -/
theorem byteReverse_half (v : Word) : byteReverse 2 v = ((v &&& 0xFF) <<< 8) ||| ((v >>> 8) &&& 0xFF) := by
  rw [← setWidth_byte, ← setWidth_byte]
  simp [byteReverse, toBytes, ofBytes]

/-- A bit of a number made of bytes: the last byte holds the eight low-order bits. -/
theorem getLsbD_ofBytes (l : List Byte) {k : Nat} (hk : k < 64) :
    (ofBytes l).getLsbD k = ((l.reverse[k / 8]?).getD 0).getLsbD (k % 8) := by
  induction l using List.reverseRecOn generalizing k with
  | nil => simp [ofBytes]
  | append_singleton l b ih =>
    have hlast : ofBytes (l ++ [b]) = ofBytes l <<< 8 ||| b.setWidth 64 := by simp [ofBytes]
    rw [hlast, List.reverse_append]
    by_cases h : k < 8
    · simp [h, hk, Nat.div_eq_of_lt h, Nat.mod_eq_of_lt h]
    · obtain ⟨m, rfl⟩ : ∃ m, k = m + 8 := ⟨k - 8, by omega⟩
      have hm : m < 64 := by omega
      simpa [hk, hm] using ih hm

/-- Byte `j` of the reversed value, from the least significant on, is the byte as far from the other end. -/
theorem byte_byteReverse {n j : Nat} (hn : n ≤ 8) (hj : j < n) (v : Word) :
    (byteReverse n v >>> (8 * j)).setWidth 8 = (v >>> (8 * (n - 1 - j))).setWidth 8 := by
  refine BitVec.eq_of_getLsbD_eq fun k hk => ?_
  rw [BitVec.getLsbD_setWidth, BitVec.getLsbD_ushiftRight, byteReverse, getLsbD_ofBytes _ (by omega),
    List.reverse_reverse, show (8 * j + k) / 8 = j by omega, show (8 * j + k) % 8 = k by omega,
    getElem?_toBytes v hj]
  simp [hk]

/-- What a byte-reverse store puts at a byte is what the plain store puts at the one as far from the other end. -/
theorem valueByte_byteReverse (s : State) {n i : Nat} (hn : n ≤ 8) (hi : i < n) (v : Word) :
    valueByte s n (byteReverse n v) i = valueByte s n v (n - 1 - i) := by
  unfold valueByte
  split
  · exact byte_byteReverse hn hi v
  · exact byte_byteReverse hn (by omega) v

theorem StoresBytes.congr {s t : State} {a : Access} {byte byte' : Nat → Byte} (h : StoresBytes s t a byte)
    (hb : ∀ i, i < a.len → byte i = byte' i) : StoresBytes s t a byte' := by
  obtain ⟨hresume, hframe, hother, hstored⟩ := h
  exact ⟨hresume, hframe, hother, fun i hi hlast => (hstored i hi hlast).trans (hb i hi)⟩

theorem completesAt_storeInt_reversed {s : State} {i : Instr} {n : Nat} {v ea : Word} (hm : s.mem.wf = true)
    (hn : n ≤ 8) (hexec : exec i s = storeInt i n (byteReverse n v) none ea s)
    (hacc : accessOf s i = some (intAccess i true n ea)) (hadm : ∀ k, whenAdmitted i s k = k s) :
    CompletesAt s i fun a t => StoresBytes s t a fun j => valueByte s n v (n - 1 - j) := by
  refine completesAt_of_access hacc fun hc => ?_
  obtain ⟨t, ht, hstores⟩ := storeInt_clear (v := byteReverse n v) hadm hc hm
  exact ⟨t, hexec.trans ht, hstores.congr fun j hj => valueByte_byteReverse s hn hj v⟩

/-! ## Multiples and strings (41 R151, R152, R174 to R177) -/

/-- A clear multiple or string stores the bytes of the registers, the most significant first: it is big-endian. -/
theorem perform_wordBytes_clear {s : State} {a : Access} (rs : Reg) (part : Nat → State → State)
    (hc : clear s a = true) (hm : s.mem.wf = true) (hk : a.cls = .multiple ∨ a.cls = .string) :
    ∃ t, perform a part (storeBytes a (s.wordBytes a rs)) s = .next t ∧
      StoresBytes s t a (registerByte s rs) :=
  perform_store_clear part hc hm (length_wordBytes s a rs) fun _ hi =>
    getElem?_wordBytes rs hi (by rw [bigEndian_of_clear hc hk, Bool.and_false])

theorem words_multiple (i : Instr) (store : Bool) (r : Reg) (ea : Word) :
    (multipleAccess i store r ea).words = 32 - r.toNat := by
  simp only [Access.words, multipleAccess]; omega

theorem loadMultiple_clear {i : Instr} {s : State} {rd : Reg} {ea : Word} (hadm : ∀ k, whenAdmitted i s k = k s)
    (hc : clear s (multipleAccess i false rd ea) = true) :
    ∃ t, loadMultiple i rd ea s = .next t ∧ LoadsWords s t (multipleAccess i false rd ea) rd := by
  rw [loadMultiple, hadm]
  exact perform_words_clear _ hc (by rw [words_multiple]; omega)

theorem storeMultiple_clear {i : Instr} {s : State} {rs : Reg} {ea : Word} (hadm : ∀ k, whenAdmitted i s k = k s)
    (hc : clear s (multipleAccess i true rs ea) = true) (hm : s.mem.wf = true) :
    ∃ t, storeMultiple i rs ea s = .next t ∧
      StoresBytes s t (multipleAccess i true rs ea) (registerByte s rs) := by
  rw [storeMultiple, hadm]
  exact perform_wordBytes_clear rs _ hc hm (.inl rfl)

/-- An access of a string instruction moves a nonzero number of bytes (41 R140 step 4). -/
theorem nonzeroString_ne_zero {i : Instr} {store : Bool} {n : Nat} {ea : Word} {a : Access}
    (h : nonzeroString i store n ea = some a) : n ≠ 0 := by
  rintro rfl
  cases h

/-- A string instruction completes if it does so for a nonzero count of bytes. -/
theorem completesAt_of_nonzeroString {s : State} {i : Instr} {store : Bool} {n : Nat} {ea : Word}
    {post : Access → State → Prop} (hacc : accessOf s i = nonzeroString i store n ea)
    (h : n ≠ 0 → clear s (stringAccess i store n ea) = true →
      ∃ t, exec i s = .next t ∧ post (stringAccess i store n ea) t) : CompletesAt s i post := by
  intro a ha hc
  have hs := hacc.symm.trans ha
  obtain rfl := nonzeroString_eq_some hs
  exact h (nonzeroString_ne_zero hs) hc

theorem completesAt_loadString {s : State} {i : Instr} {rd : Reg} {n : Nat} {ea : Word} (hn : n ≤ 128)
    (hexec : exec i s = loadString i rd n ea s) (hacc : accessOf s i = nonzeroString i false n ea)
    (hadm : ∀ k, whenAdmitted i s k = k s) : CompletesAt s i fun a t => a.len = n ∧ LoadsWords s t a rd := by
  refine completesAt_of_nonzeroString hacc fun h0 hc => ?_
  obtain ⟨t, ht, hloads⟩ := perform_words_clear (rd := rd) (partialWords _ rd) hc (words_string i false ea hn)
  refine ⟨t, ?_, rfl, hloads⟩
  rw [hexec, loadString, hadm, if_neg h0, ht]

theorem completesAt_storeString {s : State} {i : Instr} {rs : Reg} {n : Nat} {ea : Word} (hm : s.mem.wf = true)
    (hexec : exec i s = storeString i rs n ea s) (hacc : accessOf s i = nonzeroString i true n ea)
    (hadm : ∀ k, whenAdmitted i s k = k s) :
    CompletesAt s i fun a t => a.len = n ∧ StoresBytes s t a (registerByte s rs) := by
  refine completesAt_of_nonzeroString hacc fun h0 hc => ?_
  obtain ⟨t, ht, hstores⟩ := perform_wordBytes_clear rs (partialStore _ (s.wordBytes _ rs)) hc hm (.inr rfl)
  refine ⟨t, ?_, rfl, hstores⟩
  rw [hexec, storeString, hadm, if_neg h0, ht]

/-- `XER[25-31]` is the seven low-order bits of the XER. -/
theorem xerCount_eq (xer : BitVec 32) : xerCount xer = (xer &&& 0x7F).toNat := by
  have hmask : xer.toNat &&& 0x7F = xer.toNat % 2 ^ 7 := Nat.and_two_pow_sub_one_eq_mod _ 7
  simp [xerCount, hmask]

/-! ## Accesses with reservation (41 R166, R167, R178, R179) -/

theorem loadReserve_clear {i : Instr} {s : State} {n : Nat} {rd : Reg} {ea : Word}
    (hadm : ∀ k, whenAdmitted i s k = k s) (hc : clear s (reserveAccess i false n ea) = true) :
    loadReserve i n rd ea s = .next
      { s.setGpr rd (s.operand (reserveAccess i false n ea)) with reservation := some ea }.finish := by
  rw [loadReserve, hadm]
  exact perform_clear hc _ _

/-- Where its access is clear a store conditional has one outcome: the failure that may replace a DSI is the
same as that without the reservation. -/
theorem storeConditional_clear {i : Instr} {s : State} {n : Nat} {v ea : Word}
    (hadm : ∀ k, whenAdmitted i s k = k s) (hc : clear s (reserveAccess i true n ea) = true) :
    storeConditional i n v ea s =
      .next (condStore (reserveAccess i true n ea) (s.dataBytes n v) s).finish := by
  rw [storeConditional, hadm]
  simp only [perform_clear hc, ite_self]

theorem condStore_frame (a : Access) (data : List Byte) (s : State) : condStore a data s =
    { s with mem := (condStore a data s).mem
             cr := withCr0 s.cr (condStoreCr0 s.reservation.isSome s.xer), reservation := none } := by
  unfold condStore
  dsimp only
  split <;> rfl

theorem condStore_mem (a : Access) (data : List Byte) (s : State) : (condStore a data s).mem =
    if s.reservation.isSome then (storeBytes a data s).mem else s.mem := by
  unfold condStore
  dsimp only
  split <;> rfl

/-- CR0 is the four bits it is replaced by. -/
theorem getMsbD_withCr0_low (cr : BitVec 32) (v : BitVec 4) {k : Nat} (h : k < 4) :
    (withCr0 cr v).getMsbD k = v.getMsbD k := by
  rw [withCr0, BitVec.getMsbD_append]
  simp [h]

/-- CR0 after a store conditional, bit by bit. -/
theorem getMsbD_condStoreCr0 (stored : Bool) (xer : BitVec 32) :
    (condStoreCr0 stored xer).getMsbD 0 = false ∧ (condStoreCr0 stored xer).getMsbD 1 = false ∧
      (condStoreCr0 stored xer).getMsbD 2 = stored ∧ (condStoreCr0 stored xer).getMsbD 3 = xerSO xer := by
  unfold condStoreCr0
  generalize xerSO xer = so
  revert stored so
  decide

/-- What a store conditional leaves in CR: CR0 says whether it stored, and the other fields are as before. -/
theorem getMsbD_condStore_cr (a : Access) (data : List Byte) (s : State) : let cr := (condStore a data s).cr
    cr.getMsbD 0 = false ∧ cr.getMsbD 1 = false ∧ cr.getMsbD 2 = s.reservation.isSome ∧
      cr.getMsbD 3 = xerSO s.xer ∧ ∀ k, 4 ≤ k → cr.getMsbD k = s.cr.getMsbD k := by
  rw [condStore_frame]
  obtain ⟨h0, h1, h2, h3⟩ := getMsbD_condStoreCr0 s.reservation.isSome s.xer
  have hlow {k : Nat} (hk : k < 4) := getMsbD_withCr0_low s.cr (condStoreCr0 s.reservation.isSome s.xer) hk
  exact ⟨(hlow (by decide)).trans h0, (hlow (by decide)).trans h1, (hlow (by decide)).trans h2,
    (hlow (by decide)).trans h3, fun _ hk => getMsbD_withCr0 _ _ hk⟩

/-! ## External control (41 R184, R185) -/

theorem externalIn_clear {i : Instr} {s : State} {rd : Reg} {ea : Word} (hadm : ∀ k, whenAdmitted i s k = k s)
    (hc : clear s (externalAccess i false ea) = true) :
    externalIn i rd ea s = .next (s.setGpr rd (low32 (s.freeWord .external 0))).finish := by
  rw [externalIn, hadm]
  exact perform_clear hc _ _

theorem externalOut_clear {i : Instr} {s : State} {v ea : Word} (hadm : ∀ k, whenAdmitted i s k = k s)
    (hc : clear s (externalAccess i true ea) = true) :
    externalOut i v ea s = .next (sendWord (externalAccess i true ea) v 0b1111 s).finish := by
  rw [externalOut, hadm]
  exact perform_clear hc _ _

/-- The instruction loaded `rd` by `setGpr` and finished. -/
theorem loadsGpr_finish (s : State) (rd : Reg) (v : Word) : LoadsGpr s (s.setGpr rd v).finish rd v := by
  refine ⟨resumes_finish rfl rfl rfl rfl rfl rfl rfl, ?_, ?_, fun r hr => ?_⟩
  · rw [State.finish_eq]; rfl
  · rw [State.readGpr_finish, State.readGpr_setGpr_same]
  · rw [State.readGpr_finish, State.readGpr_setGpr_other s v (List.mem_singleton.not.1 hr)]

theorem low32_eq_setWidth (v : Word) : low32 v = (v.setWidth 32).setWidth 64 := by
  have hmask : ∀ k < 64, (0xFFFFFFFF : Word).getLsbD k = decide (k < 32) := by decide
  refine BitVec.eq_of_getLsbD_eq fun k hk => ?_
  rw [low32, BitVec.getLsbD_and, hmask k hk, Bool.and_comm]
  simp [hk]

/-- All four bytes selected are the whole word. -/
theorem selectBytes_all (w : BitVec 32) : selectBytes 0b1111 w = w := by
  have hmask : (0xFF#8 ++ 0xFF#8 ++ 0xFF#8 ++ 0xFF#8 : BitVec 32) = BitVec.allOnes 32 := by decide
  exact (congrArg (w &&& ·) hmask).trans BitVec.and_allOnes

/-- A word-aligned external control access meets no alignment condition. -/
theorem alignChoice_external {s : State} {a : Access} (hk : a.cls = .external) (ha : a.ea.toNat % 4 = 0) :
    s.alignChoice a = .correct := by
  simp [State.alignChoice, State.alignForced, Access.alignRequired, State.alignItem, Access.misaligned,
    Access.alignedTo, hk, ha]

/-- With `EAR[E]` = 0 and no other condition an external control access meets the DSI of that alone. -/
theorem dataFault_disabled {s : State} {a : Access} (hk : a.cls = .external) (hd : s.cfg.hasDabr = false)
    (he : earE s.ear = false) (hdr : msrDR s.context = false) : s.dataFault a =
      some { dsisr := if a.store then 0x02100000 else 0x00100000, dar := a.ea, reach := a.len } := by
  have hfirst : s.firstFault a = none := by simp [State.firstFault, byteXlate_untranslated hdr]
  have hmatch : s.dabrMatch a = false := by simp [State.dabrMatch, State.dabrConditions, hd]
  have hpermitted : s.permittedBits dsiExternal = dsiExternal := if_neg (by decide)
  have hne : dsiExternal ≠ 0#32 := by decide
  cases hs : a.store <;>
    simp [State.dataFault, State.faultDar, hfirst, hmatch, hk, he, hpermitted, hne, hs] <;> rfl

/-- An access that meets a DSI and nothing before it takes the exception, after partial execution. -/
theorem perform_of_dataFault {s : State} {a : Access} {f : DataFault} (ha : s.alignChoice a = .correct)
    (hf : s.dataFault a = some f) (part : Nat → State → State) (body : State → State) :
    perform a part body s = raise (.dsi f.dsisr f.dar) (part f.reach s) := by
  simp [perform, ha, hf]

/-- While `EAR[E]` disables it, `ecowx` sends nothing. -/
theorem partialSend_disabled {s : State} (he : earE s.ear = false) (a : Access) (v : Word) (n : Nat) :
    partialSend a v n s = s := by
  simp [partialSend, he]

/-- With `EAR[E]` = 0 and no other condition an external control instruction takes the DSI exception alone. -/
theorem perform_disabled {s : State} {i : Instr} {store : Bool} {ea : Word} {part : Nat → State → State}
    (hd : s.cfg.hasDabr = false) (he : earE s.ear = false) (hdr : msrDR s.context = false)
    (ha : ea.toNat % 4 = 0) (hpart : ∀ n, part n s = s) (body : State → State) :
    perform (externalAccess i store ea) part body s =
      raise (.dsi (if store then 0x02100000 else 0x00100000) ea) s := by
  rw [perform_of_dataFault (alignChoice_external rfl ha) (dataFault_disabled rfl hd he hdr), hpart]
  rfl

/-! ## Cache instructions (41 R186, 42 R214 to R217) -/

theorem cacheOp_clear {i : Instr} {s : State} {store : Bool} {ea : Word} (hadm : ∀ k, whenAdmitted i s k = k s)
    (hc : clear s (cacheAccess i store ea) = true) : cacheOp i store ea s = .next s.finish := by
  rw [cacheOp, hadm]
  exact perform_clear hc _ _

theorem zeroBlock_clear {i : Instr} {s : State} {ea : Word} (hadm : ∀ k, whenAdmitted i s k = k s)
    (hc : clear s (zeroAccess i ea) = true) :
    zeroBlock i ea s = .next (clearBlock (zeroAccess i ea) s).finish := by
  rw [zeroBlock, hadm]
  exact perform_clear hc _ _

/-- The cache block is exactly the addresses that agree with the translated one above the offset bits. -/
theorem mem_block_iff {s : State} {a : Access} {p : Word} :
    p ∈ s.block a ↔ p >>> s.cfg.blockLog = xlatePa (s.byteXlate a 0) >>> s.cfg.blockLog := by
  refine ⟨shiftRight_of_mem_block, fun h => ?_⟩
  simp only [State.block, List.mem_map, List.mem_range, ← h]
  refine ⟨p.toNat % 2 ^ s.cfg.blockLog, Nat.mod_lt _ (Nat.two_pow_pos _), BitVec.eq_of_toNat_eq ?_⟩
  rw [BitVec.toNat_add, BitVec.toNat_shiftLeft, BitVec.toNat_ushiftRight, BitVec.toNat_ofNat, ← Nat.add_mod,
    Nat.shiftRight_eq_div_pow, Nat.shiftLeft_eq, Nat.div_add_mod', Nat.mod_eq_of_lt p.isLt]

/-- Memory filled with one byte at the addresses of a list. -/
theorem read_writeBytes_fill {m : Memory} (hm : m.wf = true) (l : List Word) (v : Byte) (p : Word) :
    Memory.read (writeBytes m (l.map fun pa => (pa, v))) p = if p ∈ l then v else Memory.read m p := by
  induction l generalizing m with
  | nil => rfl
  | cons pa l ih =>
    rw [List.map_cons, writeBytes, ih (Memory.write_wf hm pa v)]
    by_cases hl : p ∈ l
    · simp [hl]
    · by_cases hp : p = pa
      · simp [hp, Memory.read_write_same hm]
      · simp [hl, hp, Memory.read_write_other m v (Ne.symm hp)]

end Sys2Proof.Machine

open Sys2Proof Sys2Proof.Machine

/-- Settles O30: each instruction is an elementary load with the extension of its kind. -/
theorem integerLoads : Obligations.IntegerLoads := by
  intro s rd ra rb d ds half word
  simp only [half, word, ← signHalf_eq, ← signWord_eq]
  exact ⟨completesAt_loadInt (exec_lwz ..) rfl (admit_plain rfl rfl rfl rfl),
    completesAt_loadInt (exec_lwzx ..) rfl (admit_plain rfl rfl rfl rfl),
    completesAt_loadInt (exec_lhz ..) rfl (admit_plain rfl rfl rfl rfl),
    completesAt_loadInt (exec_lhzx ..) rfl (admit_plain rfl rfl rfl rfl),
    completesAt_loadInt (exec_lbz ..) rfl (admit_plain rfl rfl rfl rfl),
    completesAt_loadInt (exec_lbzx ..) rfl (admit_plain rfl rfl rfl rfl),
    completesAt_loadInt (exec_lha ..) rfl (admit_plain rfl rfl rfl rfl),
    completesAt_loadInt (exec_lhax ..) rfl (admit_plain rfl rfl rfl rfl), fun h64 =>
    ⟨completesAt_loadInt (exec_ld ..) rfl (admit_plain h64 rfl rfl rfl),
    completesAt_loadInt (exec_ldx ..) rfl (admit_plain h64 rfl rfl rfl),
    completesAt_loadInt (exec_lwa ..) rfl (admit_plain h64 rfl rfl rfl),
    completesAt_loadInt (exec_lwax ..) rfl (admit_plain h64 rfl rfl rfl)⟩⟩

/-- Settles O31: as without update, and neither register overwrites the other because they differ. -/
theorem updateLoads : Obligations.UpdateLoads := by
  intro s rd ra rb d ds h0 hne
  have hv : (ra != 0 && ra != rd) = true := by
    rw [Bool.and_eq_true]
    exact ⟨bne_iff_ne.2 h0, bne_iff_ne.2 hne⟩
  simp only [← signHalf_eq, ← signWord_eq]
  exact ⟨completesAt_loadInt_update hne (exec_lwzu ..) rfl (admit_plain rfl hv rfl rfl),
    completesAt_loadInt_update hne (exec_lwzux ..) rfl (admit_plain rfl hv rfl rfl),
    completesAt_loadInt_update hne (exec_lhzu ..) rfl (admit_plain rfl hv rfl rfl),
    completesAt_loadInt_update hne (exec_lhzux ..) rfl (admit_plain rfl hv rfl rfl),
    completesAt_loadInt_update hne (exec_lbzu ..) rfl (admit_plain rfl hv rfl rfl),
    completesAt_loadInt_update hne (exec_lbzux ..) rfl (admit_plain rfl hv rfl rfl),
    completesAt_loadInt_update hne (exec_lhau ..) rfl (admit_plain rfl hv rfl rfl),
    completesAt_loadInt_update hne (exec_lhaux ..) rfl (admit_plain rfl hv rfl rfl), fun h64 =>
    ⟨completesAt_loadInt_update hne (exec_ldu ..) rfl (admit_plain h64 hv rfl rfl),
    completesAt_loadInt_update hne (exec_ldux ..) rfl (admit_plain h64 hv rfl rfl),
    completesAt_loadInt_update hne (exec_lwaux ..) rfl (admit_plain h64 hv rfl rfl)⟩⟩

/-- Settles O32: the loads put each byte in its mirrored place, and the stores those of the reversed value. -/
theorem byteReverse : Obligations.ByteReverse := by
  intro s rd rs ra rb hm
  simp only [← byteReverse_word, ← byteReverse_half]
  exact ⟨completesAt_loadInt (exec_lwbrx ..) rfl (admit_plain rfl rfl rfl rfl),
    completesAt_loadInt (exec_lhbrx ..) rfl (admit_plain rfl rfl rfl rfl),
    completesAt_storeInt_reversed hm (by decide) (exec_stwbrx ..) rfl (admit_plain rfl rfl rfl rfl),
    completesAt_storeInt_reversed hm (by decide) (exec_sthbrx ..) rfl (admit_plain rfl rfl rfl rfl)⟩

/-- Settles O33: each instruction is an elementary store of the low-order bytes of rS. -/
theorem integerStores : Obligations.IntegerStores := by
  intro s rs ra rb d ds hm
  exact ⟨completesAt_storeInt hm (exec_stw ..) rfl (admit_plain rfl rfl rfl rfl),
    completesAt_storeInt hm (exec_stwx ..) rfl (admit_plain rfl rfl rfl rfl),
    completesAt_storeInt hm (exec_sth ..) rfl (admit_plain rfl rfl rfl rfl),
    completesAt_storeInt hm (exec_sthx ..) rfl (admit_plain rfl rfl rfl rfl),
    completesAt_storeInt hm (exec_stb ..) rfl (admit_plain rfl rfl rfl rfl),
    completesAt_storeInt hm (exec_stbx ..) rfl (admit_plain rfl rfl rfl rfl), fun h64 =>
    ⟨completesAt_storeInt hm (exec_std ..) rfl (admit_plain h64 rfl rfl rfl),
    completesAt_storeInt hm (exec_stdx ..) rfl (admit_plain h64 rfl rfl rfl)⟩⟩

/-- Settles O34: the bytes are those of rS before the update register is written. -/
theorem updateStores : Obligations.UpdateStores := by
  intro s rs ra rb d ds hm h0
  have hv : (ra != 0) = true := bne_iff_ne.2 h0
  exact ⟨completesAt_storeInt_update hm (exec_stwu ..) rfl (admit_plain rfl hv rfl rfl),
    completesAt_storeInt_update hm (exec_stwux ..) rfl (admit_plain rfl hv rfl rfl),
    completesAt_storeInt_update hm (exec_sthu ..) rfl (admit_plain rfl hv rfl rfl),
    completesAt_storeInt_update hm (exec_sthux ..) rfl (admit_plain rfl hv rfl rfl),
    completesAt_storeInt_update hm (exec_stbu ..) rfl (admit_plain rfl hv rfl rfl),
    completesAt_storeInt_update hm (exec_stbux ..) rfl (admit_plain rfl hv rfl rfl), fun h64 =>
    ⟨completesAt_storeInt_update hm (exec_stdu ..) rfl (admit_plain h64 hv rfl rfl),
    completesAt_storeInt_update hm (exec_stdux ..) rfl (admit_plain h64 hv rfl rfl)⟩⟩

/-- Settles O35: each instruction is a floating-point load with the conversion of its format. -/
theorem floatLoads : Obligations.FloatLoads := by
  intro s fr ra rb d hfp
  refine ⟨completesAt_loadFloat (exec_lfs ..) rfl (admit_float rfl rfl rfl hfp),
    completesAt_loadFloat (exec_lfsx ..) rfl (admit_float rfl rfl rfl hfp),
    completesAt_loadFloat (exec_lfd ..) rfl (admit_float rfl rfl rfl hfp),
    completesAt_loadFloat (exec_lfdx ..) rfl (admit_float rfl rfl rfl hfp), fun h0 => ?_⟩
  have hv : (ra != 0) = true := bne_iff_ne.2 h0
  exact ⟨completesAt_loadFloat_update (exec_lfsu ..) rfl (admit_float rfl hv rfl hfp),
    completesAt_loadFloat_update (exec_lfsux ..) rfl (admit_float rfl hv rfl hfp),
    completesAt_loadFloat_update (exec_lfdu ..) rfl (admit_float rfl hv rfl hfp),
    completesAt_loadFloat_update (exec_lfdux ..) rfl (admit_float rfl hv rfl hfp)⟩

/-- Settles O36: each instruction is a floating-point store of frS in its format. -/
theorem floatStores : Obligations.FloatStores := by
  intro s fr ra rb d hm hfp
  refine ⟨completesAt_storeFloat hm (exec_stfs ..) rfl (admit_float rfl rfl rfl hfp),
    completesAt_storeFloat hm (exec_stfsx ..) rfl (admit_float rfl rfl rfl hfp),
    completesAt_storeFloat hm (exec_stfd ..) rfl (admit_float rfl rfl rfl hfp),
    completesAt_storeFloat hm (exec_stfdx ..) rfl (admit_float rfl rfl rfl hfp),
    fun hp => completesAt_storeFloat hm (exec_stfiwx ..) rfl (admit_float hp rfl rfl hfp), fun h0 => ?_⟩
  have hv : (ra != 0) = true := bne_iff_ne.2 h0
  exact ⟨completesAt_storeFloat_update hm (exec_stfsu ..) rfl (admit_float rfl hv rfl hfp),
    completesAt_storeFloat_update hm (exec_stfsux ..) rfl (admit_float rfl hv rfl hfp),
    completesAt_storeFloat_update hm (exec_stfdu ..) rfl (admit_float rfl hv rfl hfp),
    completesAt_storeFloat_update hm (exec_stfdux ..) rfl (admit_float rfl hv rfl hfp)⟩

/-- Settles O37: a clear multiple is big-endian, and its registers are those up to r31. -/
theorem multipleWords : Obligations.MultipleWords := by
  intro s r ra d
  refine ⟨fun hlt => completesAt_of_access rfl fun hc => ?_, fun hm => completesAt_of_access rfl fun hc => ?_⟩
  · have hv : (Instr.lmw r ra d).validForm = true := decide_eq_true hlt
    obtain ⟨t, ht, hloads⟩ := loadMultiple_clear (admit_plain rfl hv rfl rfl) hc
    exact ⟨t, ht, words_multiple _ _ _ _, hloads⟩
  · obtain ⟨t, ht, hstores⟩ := storeMultiple_clear (admit_plain rfl rfl rfl rfl) hc hm
    exact ⟨t, ht, rfl, hstores⟩

/-- Settles O38: a nonzero count makes an access, whose words are at most 32, and a zero count none. -/
theorem stringTransfers : Obligations.StringTransfers := by
  intro s r ra rb nb n m
  have hn : n = xerCount s.xer := (xerCount_eq s.xer).symm
  rw [hn]
  refine ⟨completesAt_loadString (immediateCount_le nb) (exec_lswi ..) rfl (admit_plain rfl rfl rfl rfl),
    fun _ hform => completesAt_loadString (xerCount_le _) ((exec_lswx ..).trans (if_pos hform)) rfl
      (admit_plain rfl rfl rfl rfl),
    fun hm => ⟨completesAt_storeString hm (exec_stswi ..) rfl (admit_plain rfl rfl rfl rfl),
      fun _ => completesAt_storeString hm (exec_stswx ..) rfl (admit_plain rfl rfl rfl rfl)⟩,
    fun h0 => ⟨?_, ?_⟩⟩
  · have hform : stringFormValid r ra rb (xerCount s.xer) = true := by rw [h0]; rfl
    rw [exec_lswx, if_pos hform, loadString, admit_plain rfl rfl rfl rfl, if_pos h0]
    rfl
  · rw [exec_stswx, storeString, admit_plain rfl rfl rfl rfl, if_pos h0]
    rfl

/-- Settles O39: a clear store conditional stores exactly with the reservation, and CR0 says which. -/
theorem reservedAccesses : Obligations.ReservedAccesses := by
  intro s r ra rb reserves stores
  have hload {i : Instr} {n : Nat} (hexec : exec i s = loadReserve i n r (s.eaX ra rb) s)
      (hacc : accessOf s i = some (reserveAccess i false n (s.eaX ra rb)))
      (hadm : ∀ k, whenAdmitted i s k = k s) : CompletesAt s i reserves := by
    refine completesAt_of_access hacc fun hc => ⟨_, hexec.trans (loadReserve_clear hadm hc),
      resumes_finish rfl rfl rfl rfl rfl rfl rfl, ?_, ?_, fun q hq => ?_⟩
    · rw [State.finish_eq]; rfl
    · rw [State.readGpr_finish]
      exact State.readGpr_setGpr_same s r _
    · rw [State.readGpr_finish]
      exact State.readGpr_setGpr_other s _ (List.mem_singleton.not.1 hq)
  have hstore {i : Instr} {n : Nat} (hm : s.mem.wf = true)
      (hexec : exec i s = storeConditional i n (s.readGpr r) (s.eaX ra rb) s)
      (hacc : accessOf s i = some (reserveAccess i true n (s.eaX ra rb)))
      (hadm : ∀ k, whenAdmitted i s k = k s) : CompletesAt s i (stores n) := by
    refine completesAt_of_access hacc fun hc => ⟨_, hexec.trans (storeConditional_clear hadm hc), ?_, ?_, ?_, ?_⟩
    · rw [condStore_frame]
      exact resumes_finish rfl rfl rfl rfl rfl rfl rfl
    · rw [State.finish_eq, condStore_frame]
    · rw [State.finish_mem, condStore_mem]
      split
      · exact storedAt_keptStores hm (length_dataBytes s n _) fun _ hi => getElem?_dataBytes _ hi
      · rfl
    · rw [State.finish_cr]
      exact getMsbD_condStore_cr _ _ s
  exact ⟨hload (exec_lwarx ..) rfl (admit_plain rfl rfl rfl rfl),
    fun h64 => hload (exec_ldarx ..) rfl (admit_plain h64 rfl rfl rfl),
    fun hm => ⟨hstore hm (exec_stwcxDot ..) rfl (admit_plain rfl rfl rfl rfl),
      fun h64 => hstore hm (exec_stdcxDot ..) rfl (admit_plain h64 rfl rfl rfl)⟩⟩

/-- Settles O40: where `EAR[E]` = 0 its condition is the only one, and nothing is sent before the exception. -/
theorem externalControl : Obligations.ExternalControl := by
  intro s r ra rb hp
  refine ⟨completesAt_of_access rfl fun hc => ⟨_, (exec_eciwx r ra rb s).trans
      (externalIn_clear (admit_plain hp rfl rfl rfl) hc), (s.freeWord .external 0).setWidth 32, ?_⟩,
    completesAt_of_access rfl fun hc => ⟨_, (exec_ecowx r ra rb s).trans
      (externalOut_clear (admit_plain hp rfl rfl rfl) hc), resumes_finish rfl rfl rfl rfl rfl rfl rfl, ?_⟩,
    ?_⟩
  · rw [← low32_eq_setWidth]
    exact loadsGpr_finish s r _
  · rw [State.finish_eq, sendWord, selectBytes_all]
  · intro keeps hd he hdr ha
    have hentry (dsisr : BitVec 32) : let t := takeException (.dsi dsisr (s.eaX ra rb)) s.cia s
        TakenFrom s t (.dsi dsisr (s.eaX ra rb)) s.cia ∧ keeps t :=
      ⟨takeException_takenFrom _ _ s, takeException_entryFrame _ _ s, takeException_decPending _ _ s,
        takeException_sresetReq _ _ s, takeException_mcheckReq _ _ s⟩
    refine ⟨⟨_, ?_, hentry _⟩, _, ?_, hentry _⟩
    · rw [exec_eciwx, externalIn, admit_plain (i := .eciwx r ra rb) hp rfl rfl rfl]
      exact perform_disabled hd he hdr ha (fun _ => rfl) _
    · rw [exec_ecowx, externalOut, admit_plain (i := .ecowx r ra rb) hp rfl rfl rfl]
      exact perform_disabled hd he hdr ha (partialSend_disabled he _ _) _

/-- Settles O41: the addresses of the block are those that agree with the translated one above its offset. -/
theorem cacheInstructions : Obligations.CacheInstructions := by
  intro s ra rb nothing
  have hcache {i : Instr} {store : Bool} (hexec : exec i s = cacheOp i store (s.eaX ra rb) s)
      (hacc : accessOf s i = some (cacheAccess i store (s.eaX ra rb)))
      (hadm : ∀ k, whenAdmitted i s k = k s) : CompletesAt s i nothing :=
    completesAt_of_access hacc fun hc => ⟨_, hexec.trans (cacheOp_clear hadm hc),
      resumes_finish rfl rfl rfl rfl rfl rfl rfl, State.finish_eq s⟩
  refine ⟨fun hm => completesAt_of_access rfl fun hc =>
      ⟨_, (exec_dcbz ra rb s).trans (zeroBlock_clear (admit_plain rfl rfl rfl rfl) hc),
        resumes_finish rfl rfl rfl rfl rfl rfl rfl, ?_, fun p => ?_⟩,
    hcache (exec_icbi ..) rfl (admit_plain rfl rfl rfl rfl),
    hcache (exec_dcbst ..) rfl (admit_plain rfl rfl rfl rfl),
    hcache (exec_dcbf ..) rfl (admit_plain rfl rfl rfl rfl),
    fun hpr => hcache (exec_dcbi ..) rfl (admit_supervisor rfl rfl rfl hpr)⟩
  · rw [State.finish_eq]; rfl
  · rw [State.finish_mem, clearBlock_mem, read_writeBytes_fill hm]
    simp only [mem_block_iff]

end

section
/-! Proofs about exceptions (60_exceptions.md): what entry saves and leaves, the round trip of entry and return, the
exceptions of an instruction boundary, and the instruction a step runs. -/

namespace Sys2Proof.Machine

/-! ## The MSR of entry, bit by bit (60 R274) -/

/-- Entry writes `POW`, `EE`, `PR`, `FP`, `FE0`, `SE`, `BE`, `FE1`, `IR`, `DR`, `RI` and `LE`, beside `SF` and `ME`. -/
theorem getMsbD_handlerBits (m : Word) {k : Nat} (hk : k < 64)
    (hn : k ∉ [45, 48, 49, 50, 52, 53, 54, 55, 58, 59, 62, 63]) : (handlerBits m).getMsbD k = m.getMsbD k := by
  have hcleared : ∀ j < 64, j ∉ [45, 48, 49, 50, 52, 53, 54, 55, 58, 59, 62, 63] →
      (0x0004EF33 : Word).getMsbD j = false ∧ (1 : Word).getMsbD j = false := by decide
  obtain ⟨hmask, hone⟩ := hcleared k hk hn
  simp only [handlerBits, BitVec.getMsbD_or, BitVec.getMsbD_and, BitVec.getMsbD_not, hmask, hone, hk]
  simp

/-- Entry alters no bit that the table does not name. -/
theorem getMsbD_entryMsr_unnamed (c : Config) (e : Exc) (m : Word) {k : Nat} (hk : k < 64)
    (hn : k ∉ [0, 45, 48, 49, 50, 51, 52, 53, 54, 55, 58, 59, 62, 63]) :
    (entryMsr c e m).getMsbD k = m.getMsbD k := by
  have hsub : ∀ j ∈ [45, 48, 49, 50, 52, 53, 54, 55, 58, 59, 62, 63],
      j ∈ [0, 45, 48, 49, 50, 51, 52, 53, 54, 55, 58, 59, 62, 63] := by decide
  rw [getMsbD_entryMsr c e m (by rintro rfl; simp at hn) (by rintro rfl; simp at hn)]
  exact getMsbD_handlerBits m hk fun h => hn (hsub k h)

@[simp] theorem msrILE_entryMsr (c : Config) (e : Exc) (m : Word) : msrILE (entryMsr c e m) = msrILE m :=
  getMsbD_entryMsr_unnamed c e m (by decide) (by decide)

/-- The MSR of entry before `SF`, which depends on the implementation (60 R274). -/
def entryBits (e : Exc) (m : Word) : Word :=
  match e with
  | .machineCheck _ => handlerBits m &&& ~~~(0x1000 : Word)
  | _ => handlerBits m

theorem entryMsr_eq (c : Config) (e : Exc) (m : Word) : entryMsr c e m =
    if c.is64 then if c.hasIsf && !msrISF m then entryBits e m &&& ~~~maskSF else entryBits e m ||| maskSF
    else entryBits e m := by
  cases e <;> rfl

/-- Entry writes `SF` on a 64-bit implementation alone. -/
theorem msrSF_entryMsr (c : Config) (e : Exc) (m : Word) : msrSF (entryMsr c e m) =
    if c.is64 then (if c.hasIsf then msrISF m else true) else msrSF m := by
  have hbits : msrSF (entryBits e m) = msrSF m := by
    have hhandler : msrSF (handlerBits m) = msrSF m := getMsbD_handlerBits m (by decide) (by decide)
    cases e with
    | machineCheck lost => simpa [entryBits, msrSF, BitVec.getMsbD_and, BitVec.getMsbD_not] using hhandler
    | _ => exact hhandler
  have hset (v : Word) : msrSF (v ||| maskSF) = true := by simp [msrSF, maskSF, BitVec.getMsbD_or]
  have hclear (v : Word) : msrSF (v &&& ~~~maskSF) = false := by
    simp [msrSF, maskSF, BitVec.getMsbD_and]
  rw [entryMsr_eq]
  split_ifs <;> simp_all

/-- Entry clears `ME` for machine check alone. -/
theorem msrME_entryMsr (c : Config) (e : Exc) (m : Word) : msrME (entryMsr c e m) =
    match e with
    | .machineCheck _ => false
    | _ => msrME m := by
  have hsf (v : Word) : msrME (v &&& ~~~maskSF) = msrME v ∧ msrME (v ||| maskSF) = msrME v := by
    simp [msrME, maskSF, BitVec.getMsbD_or, BitVec.getMsbD_and]
  have hbits : msrME (entryMsr c e m) = msrME (entryBits e m) := by
    rw [entryMsr_eq]
    split_ifs <;> simp [hsf]
  rw [hbits]
  cases e with
  | machineCheck lost => simp [entryBits, msrME, BitVec.getMsbD_and]
  | _ => exact getMsbD_handlerBits m (by decide) (by decide)

/-! ## The saved image, bit by bit (60 R272, R273) -/

/-- The MSR bits an exception copies to SRR1, reserved or not (60 R272): for ISI the low-order ones alone (61 R306). -/
def Exc.copiedRange (c : Config) : Exc → Word
  | .isi _ => 0xFFFF
  | _ => copyMask c

/-- The MSR bits this implementation copies to SRR1 (60 R273). -/
def keptMask (c : Config) (e : Exc) : Word :=
  if c.copyReserved then e.copiedRange c else e.copiedRange c &&& savedDefinedMask c

/-- The exception is a system reset or machine check that lost state (61 R291, R295). -/
def Exc.losesState : Exc → Bool
  | .systemReset lost | .machineCheck lost => lost
  | _ => false

theorem saveImage_eq (c : Config) (e : Exc) (m : Word) : saveImage c e m =
    if e.losesState then ((m &&& keptMask c e) ||| e.srr1Info) &&& ~~~(0x2 : Word)
    else (m &&& keptMask c e) ||| e.srr1Info := by
  cases e with
  | systemReset lost | machineCheck lost => cases lost <;> rfl
  | _ => rfl

/-- The information bits of SRR1 (60 R272). -/
def infoMask : Word := 0x783F0000

theorem getMsbD_infoMask : ∀ k < 64,
    (infoMask.getMsbD k = true ↔ (33 ≤ k ∧ k ≤ 36) ∨ (42 ≤ k ∧ k ≤ 47)) := by decide

/-- An information bit of SRR1 is the exception's. -/
theorem getMsbD_saveImage_info (c : Config) (e : Exc) (m : Word) {k : Nat} (hk : infoMask.getMsbD k = true) :
    (saveImage c e m).getMsbD k = e.srr1Info.getMsbD k := by
  have h : (saveImage c e m &&& infoMask).getMsbD k = e.srr1Info.getMsbD k :=
    congrArg (·.getMsbD k) (saveImage_information c e m)
  rwa [BitVec.getMsbD_and, hk, Bool.and_true] at h

/-- Any other bit of SRR1 is the MSR's where it is copied, but bit 62 where state was lost. -/
theorem getMsbD_saveImage_other (c : Config) (e : Exc) (m : Word) {k : Nat} (hk : k < 64)
    (hinfo : infoMask.getMsbD k = false) : (saveImage c e m).getMsbD k =
      (m.getMsbD k && (keptMask c e).getMsbD k && !(e.losesState && decide (k = 62))) := by
  have hnone : e.srr1Info.getMsbD k = false := by
    have h : (e.srr1Info &&& infoMask).getMsbD k = e.srr1Info.getMsbD k :=
      congrArg (·.getMsbD k) (srr1Info_and e)
    rw [← h, BitVec.getMsbD_and, hinfo, Bool.and_false]
  have hlost : ∀ j < 64, (~~~(0x2 : Word)).getMsbD j = !decide (j = 62) := by decide
  have hcopy : ((m &&& keptMask c e) ||| e.srr1Info).getMsbD k =
      (m.getMsbD k && (keptMask c e).getMsbD k) := by
    rw [BitVec.getMsbD_or, BitVec.getMsbD_and, hnone, Bool.or_false]
  rw [saveImage_eq]
  split <;> simp_all [BitVec.getMsbD_and]

/-- The information bits of an exception that are 1 (61 R306, R317). -/
def Exc.infoBits : Exc → List Nat
  | .isi .segmentFail => [42]
  | .isi .noTranslation => [33]
  | .isi .noFetch => [35]
  | .isi .protection => [36]
  | .program .fpEnabled later => if later then [43, 47] else [43]
  | .program .illegal later => if later then [44, 47] else [44]
  | .program .privileged later => if later then [45, 47] else [45]
  | .program .trap later => if later then [46, 47] else [46]
  | _ => []

theorem getMsbD_srr1Info (e : Exc) : ∀ k < 64, e.srr1Info.getMsbD k = decide (k ∈ e.infoBits) := by
  cases e with
  | isi cause => cases cause <;> decide
  | program cause later => cases cause <;> cases later <;> decide
  | _ => exact fun _ _ => BitVec.getMsbD_zero

/-- The exception is an ISI, of which SRR1 copies the low-order bits alone (61 R306). -/
def Exc.isIsi : Exc → Bool
  | .isi _ => true
  | _ => false

theorem Exc.losesState_iff (e : Exc) :
    e.losesState = true ↔ e = .systemReset true ∨ e = .machineCheck true := by
  cases e <;> simp [Exc.losesState]

/-- Apart from the information bits, 60 R272 copies the whole MSR, but of ISI the low-order bits alone. -/
theorem getMsbD_copiedRange (c : Config) (e : Exc) {k : Nat} (hk : k < 64) (hinfo : infoMask.getMsbD k = false) :
    (e.copiedRange c).getMsbD k = ((c.is64 || decide (32 ≤ k)) && !(e.isIsi && decide (k ≤ 41))) := by
  have hisi : ∀ j < 64, infoMask.getMsbD j = false →
      (0xFFFF : Word).getMsbD j = (decide (32 ≤ j) && !decide (j ≤ 41)) := by decide
  have hlow : ∀ j < 64, infoMask.getMsbD j = false → (0x87C0FFFF : Word).getMsbD j = decide (32 ≤ j) := by decide
  have hall : ∀ j < 64, infoMask.getMsbD j = false → (0xFFFFFFFF87C0FFFF : Word).getMsbD j = true := by decide
  cases e with
  | isi cause =>
    have himp : (!decide (k ≤ 41)) = true → decide (32 ≤ k) = true := by simp; omega
    rw [Exc.copiedRange, hisi k hk hinfo]
    revert himp
    cases c.is64 <;> simp [Exc.isIsi]
  | _ =>
    simp only [Exc.copiedRange, Exc.isIsi, copyMask, Bool.false_and, Bool.not_false, Bool.and_true]
    cases c.is64
    · exact hlow k hk hinfo
    · exact hall k hk hinfo

/-- The defined MSR bits beside those of 60 R273 lie among the information bits. -/
theorem getMsbD_definedMask (c : Config) {k : Nat} (hk : k < 64) (hinfo : infoMask.getMsbD k = false) :
    (definedMask c).getMsbD k = (savedDefinedMask c).getMsbD k := by
  have hout : ∀ j < 64, infoMask.getMsbD j = false →
      (0x10000 : Word).getMsbD j = false ∧ (0x40000 : Word).getMsbD j = false := by decide
  obtain ⟨hILE, hPOW⟩ := hout k hk hinfo
  rw [definedMask, BitVec.getMsbD_or, BitVec.getMsbD_or, hILE, apply_ite (BitVec.getMsbD · k), hPOW,
    show (0 : Word).getMsbD k = false from BitVec.getMsbD_zero, ite_self, Bool.or_false, Bool.or_false]

/-- A value that fits a 32-bit implementation has no high-order bits. -/
theorem getMsbD_of_fits {c : Config} {m : Word} (h : fits c m = true) (h64 : c.is64 = false) {k : Nat}
    (hk : k < 32) : m.getMsbD k = false := by
  have hlow : low32 m = m := (fits_iff.1 h).resolve_left (by simp [h64])
  have hmask : ∀ j < 32, (0xFFFFFFFF : Word).getMsbD j = false := by decide
  rw [← hlow, low32, BitVec.getMsbD_and, hmask k hk, Bool.and_false]

/-- The MSR bits that reach SRR1 where it holds no information: the defined ones, and the others where reserved bits
are copied; of ISI the low-order ones. -/
theorem getMsbD_kept {c : Config} {m : Word} (hfit : fits c m = true) (e : Exc) {k : Nat} (hk : k < 64)
    (hinfo : infoMask.getMsbD k = false) : (m.getMsbD k && (keptMask c e).getMsbD k) =
      (m.getMsbD k && (c.copyReserved || (definedMask c).getMsbD k) && !(e.isIsi && decide (k ≤ 41))) := by
  have hwidth : (m.getMsbD k && (c.is64 || decide (32 ≤ k))) = m.getMsbD k := by
    cases h64 : c.is64 with
    | true => simp
    | false =>
      by_cases h32 : 32 ≤ k
      · simp [h32]
      · rw [getMsbD_of_fits hfit h64 (by omega), Bool.false_and]
  have hrange : (m.getMsbD k && (e.copiedRange c).getMsbD k) =
      (m.getMsbD k && !(e.isIsi && decide (k ≤ 41))) := by
    rw [getMsbD_copiedRange c e hk hinfo, ← Bool.and_assoc, hwidth]
  rw [keptMask, getMsbD_definedMask c hk hinfo]
  split
  next h => rw [hrange, h, Bool.true_or, Bool.and_true]
  next h =>
    rw [BitVec.getMsbD_and, ← Bool.and_assoc, hrange, Bool.eq_false_of_not_eq_true h, Bool.false_or,
      Bool.and_right_comm]

/-- A bit cleared on two conditions, as a choice between them. -/
theorem and_not_and_not_eq_ite (x : Bool) {p q : Bool} {P Q : Prop} [Decidable P] [Decidable Q]
    (hp : p = true ↔ P) (hq : q = true ↔ Q) : (x && !p && !q) = if Q then false else if P then false else x := by
  simp only [← hp, ← hq]
  cases p <;> cases q <;> simp

/-! ## Entry and return (40 R113, 60 R283, R284) -/

/-- The bits `rfid` copies hold no information of an exception. -/
theorem infoMask_of_returnMask : ∀ k < 64, (returnMask ||| maskSF).getMsbD k = true →
    infoMask.getMsbD k = false := by decide

/-- With reserved bits copied, every bit that `rfid` restores was saved, but for ISI and where state was lost. -/
theorem getMsbD_saveImage_restored {c : Config} {e : Exc} (h64 : c.is64 = true) (hcopy : c.copyReserved = true)
    (hisi : e.isIsi = false) (hlost : e.losesState = false) (m : Word) {k : Nat}
    (hk : (returnMask ||| maskSF).getMsbD k = true) : (saveImage c e m).getMsbD k = m.getMsbD k := by
  have hlt : k < 64 := by
    by_contra hge
    rw [BitVec.getMsbD_of_ge _ _ (by omega)] at hk
    cases hk
  have hinfo := infoMask_of_returnMask k hlt hk
  rw [getMsbD_saveImage_other c e m hlt hinfo, getMsbD_kept (fits_of_is64 h64 m) e hlt hinfo, hcopy, hisi, hlost]
  simp

/-- Forming an address in a mode twice, with its two low-order bits cleared in between, is forming it once. -/
theorem addressIn_cleared_addressIn (c : Config) (m a : Word) :
    addressIn c m (addressIn c m a &&& ~~~3) = addressIn c m (a &&& ~~~3) := by
  unfold addressIn
  split
  · rfl
  · rw [low32, low32, low32, and_swap a, BitVec.and_assoc, BitVec.and_self]

theorem addressIn_congr (c : Config) {m n : Word} (h : msrSF m = msrSF n) (a : Word) :
    addressIn c m a = addressIn c n a := by
  rw [addressIn, addressIn, h]

/-! ## The registers entry writes (60 R270) -/

theorem fault?_eq_none {e : Exc} (h : ∀ dsisr dar, e ≠ .dsi dsisr dar ∧ e ≠ .alignment dsisr dar) :
    e.fault? = none := by
  cases e with
  | dsi dsisr dar => exact absurd rfl (h dsisr dar).1
  | alignment dsisr dar => exact absurd rfl (h dsisr dar).2
  | _ => rfl

theorem takeException_sresetReq_eq (e : Exc) (addr : Word) (s : State) : (takeException e addr s).sresetReq =
    if e = .systemReset true ∨ e = .systemReset false then false else s.sresetReq := by
  cases e with
  | systemReset lost => cases lost <;> rfl
  | _ => simp

theorem takeException_mcheckReq_eq (e : Exc) (addr : Word) (s : State) : (takeException e addr s).mcheckReq =
    if e = .machineCheck true ∨ e = .machineCheck false then false else s.mcheckReq := by
  cases e with
  | machineCheck lost => cases lost <;> rfl
  | _ => simp

/-- Entry makes no system reset request. -/
theorem takeException_sresetReq_false {s : State} (h : s.sresetReq = false) (e : Exc) (addr : Word) :
    (takeException e addr s).sresetReq = false := by
  rw [takeException_sresetReq_eq, h, ite_self]

/-- Entry makes no machine check request. -/
theorem takeException_mcheckReq_false {s : State} (h : s.mcheckReq = false) (e : Exc) (addr : Word) :
    (takeException e addr s).mcheckReq = false := by
  rw [takeException_mcheckReq_eq, h, ite_self]

/-! ## The step, by what it finds (60 R263) -/

@[simp] theorem advance_srr0 (s : State) : (advance s).srr0 = s.srr0 := by rw [advance_frame]
@[simp] theorem advance_srr1 (s : State) : (advance s).srr1 = s.srr1 := by rw [advance_frame]
@[simp] theorem advance_gpr (s : State) : (advance s).gpr = s.gpr := by rw [advance_frame]
@[simp] theorem advance_mem (s : State) : (advance s).mem = s.mem := by rw [advance_frame]

@[simp] theorem beginInstruction_context (s : State) : (beginInstruction s).context = s.context := rfl

/-- Time stands still in checkstop (92 D25). -/
theorem advance_checkstop {s : State} (h : s.checkstop = true) : advance s = s := if_pos h

/-- A result with `f` applied to the next state, if there is one. -/
def mapNext (f : State → State) : Result → Result
  | .next t => .next (f t)
  | .fault r => .fault r
  | .refused r => .refused r

/-- With no move of the environment due, a step begins in the state as it is. -/
theorem beginStep_idle {s : State} (h : s.env = []) : beginStep s = { s with taken := false } := by
  rw [beginStep, h]

/-- The exception due at the boundary is the step. -/
theorem step_of_boundary {s u : State} (hc : (beginStep s).checkstop = false)
    (hb : boundaryException (beginStep s) = some u) : step s = .next (advance u) := by
  simp only [step, hc, hb, Bool.false_eq_true, if_false]

/-- With nothing in its way, the instruction at NIA is the step. -/
theorem step_of_run {s : State} (hc : (beginStep s).checkstop = false)
    (hb : boundaryException (beginStep s) = none) (ha : asleep (beginStep s) = false) :
    step s = mapNext (fun t => advance (settle (beginStep s) t))
      (runInstruction (beginInstruction (beginStep s))) := by
  simp only [step, hc, hb, ha, Bool.false_eq_true, if_false]
  cases runInstruction (beginInstruction (beginStep s)) <;> rfl

theorem runInstruction_word {s : State} {w : InstWord} (h : s.fetch = .word w) :
    runInstruction s = runWord w (s.clobber (msrIR s.context) 0) := by
  rw [runInstruction, h]

theorem runWord_decoded {w : InstWord} {i : Instr} {rest : List Byte} (h : decode (bytesOfWord w) = .ok (i, rest))
    (s : State) : runWord w s = mapNext (traceAfter i (msrSE s.context) (msrBE s.context)) (exec i s) := by
  rw [runWord, h]
  dsimp only
  cases exec i s <;> rfl

theorem runWord_undecodable {w : InstWord} {r : Reject} (h : decode (bytesOfWord w) = .error r) (s : State) :
    runWord w s = raise (.program .illegal false) s := by
  rw [runWord, h]

/-! ## The `mtmsr` window (40 R114, 70 R365) -/

/-- Where the new MSR enables no pending exception, none is forced. -/
theorem settle_not_due {s : State} (h : s.window = [] ∨ boundaryExceptionIn s.msr s = none) (t : State) :
    settle s t = t := by
  obtain h | h := h
  · exact settle_closed h t
  · rw [settle, h]
    split_ifs <;> rfl

/-- The word at NIA is `sync`, `mtmsr` or `mtmsrd` (60 R241, R243). -/
theorem nextSynchronizes_of_fetch {s : State} {w : InstWord} {i : Instr} {rest : List Byte}
    (hw : (beginInstruction s).fetch = .word w) (hd : decode (bytesOfWord w) = .ok (i, rest))
    (hi : i = .sync ∨ ∃ r, i = .mtmsr r ∨ i = .mtmsrd r) : nextSynchronizes s = true := by
  simp only [nextSynchronizes, hw, hd]
  obtain rfl | ⟨r, rfl | rfl⟩ := hi <;> rfl

/-- An exception that the new MSR enables has been taken where the instruction would have closed the window,
synchronized with a floating-point exception so enabled, or cleared `EE`. -/
theorem settle_due {s t u : State} (hw : s.window ≠ []) (hdue : boundaryExceptionIn s.msr s = some u)
    (h : (settle s t).window = [] ∨ (floatPending s.msr s = true ∧ nextSynchronizes s = true) ∨
      (msrEE s.msr = true ∧ msrEE (settle s t).msr = false)) : settle s t = u := by
  unfold settle at h ⊢
  rw [if_neg hw, hdue] at h ⊢
  split_ifs at h ⊢ with hforced
  · rfl
  · exact absurd h (by simpa [and_assoc] using hforced)

/-- While a window is open and the new MSR enables a pending exception, a step that leaves none open, executes an
instruction that synchronizes while a floating-point exception is so enabled, or clears `EE` has taken it, or the one
due at the boundary. -/
theorem step_of_due {s t u : State} (hc : (beginStep s).checkstop = false) (ha : asleep (beginStep s) = false)
    (hw : (beginStep s).window ≠ []) (hdue : boundaryExceptionIn (beginStep s).msr (beginStep s) = some u)
    (ht : step s = .next t)
    (h : t.window = [] ∨
      (floatPending (beginStep s).msr (beginStep s) = true ∧ nextSynchronizes (beginStep s) = true) ∨
      (msrEE (beginStep s).msr = true ∧ msrEE t.msr = false)) :
    ∃ v, t = advance v ∧ (boundaryException (beginStep s) = some v ∨ v = u) := by
  obtain ⟨hstop, -⟩ | ⟨-, ⟨v, hv, rfl⟩ | ⟨-, ⟨hasleep, -⟩ | ⟨-, w, -, rfl⟩⟩⟩ := step_next ht
  · simp [hc] at hstop
  · exact ⟨v, rfl, .inl hv⟩
  · simp [ha] at hasleep
  · rw [advance_window, advance_msr] at h
    exact ⟨_, rfl, .inr (settle_due hw hdue h)⟩

end Sys2Proof.Machine

open Sys2Proof Sys2Proof.Machine

/-- Settles O11: `SF` and `ME` by their own lemmas, the bits cleared as the context of a handler, and the others by the
mask of entry. -/
theorem entryMsrBits : Obligations.EntryMsrBits := by
  intro c e m n
  have hhandler : HandlerMsr n := handlerMsr_entryMsr c e m
  have hLE : msrLE n = msrILE n := by
    obtain ⟨-, -, -, -, -, -, -, -, -, -, -, hLE⟩ := hhandler
    exact hLE
  refine ⟨hhandler, msrILE_entryMsr c e m, hLE.trans (msrILE_entryMsr c e m), msrIP_entryMsr c e m,
    (msrME_entryMsr c e m).trans (by cases e <;> rfl), fun h64 => ?_, fun h64 => ?_,
    fun k => getMsbD_entryMsr_unnamed c e m⟩
  · exact (msrSF_entryMsr c e m).trans (if_pos h64)
  · exact (msrSF_entryMsr c e m).trans (if_neg (by simp [h64]))

/-- Settles O12: an information bit is the exception's, and any other the MSR's where it is kept. -/
theorem savedImageBits : Obligations.SavedImageBits := by
  intro c e m hfit k hk info
  have hbits : info = e.infoBits := by
    cases e with
    | isi cause => cases cause <;> rfl
    | program cause later => cases cause <;> rfl
    | _ => rfl
  cases hinfo : infoMask.getMsbD k with
  | true =>
    rw [if_pos ((getMsbD_infoMask k hk).1 hinfo), getMsbD_saveImage_info c e m hinfo, getMsbD_srr1Info e k hk, hbits]
  | false =>
    rw [if_neg (mt (getMsbD_infoMask k hk).2 (by simp [hinfo])), getMsbD_saveImage_other c e m hk hinfo,
      getMsbD_kept hfit e hk hinfo]
    refine and_not_and_not_eq_ite _ ?_ ?_
    · rw [Bool.and_eq_true, decide_eq_true_iff, and_comm]
      exact and_congr_right fun _ => by cases e <;> simp [Exc.isIsi]
    · rw [Bool.and_eq_true, decide_eq_true_iff, and_comm, e.losesState_iff]

/-- Settles O20: every bit `rfid` copies was saved as it was, the others are those of entry, and the mode returned to
is the interrupted one. -/
theorem entryThenReturn : Obligations.EntryThenReturn := by
  intro e addr s h64 hcopy hnotIsi hreset hcheck
  have hisi : e.isIsi = false := by
    cases e with
    | isi cause => exact absurd rfl (hnotIsi cause)
    | _ => rfl
  have hlost : e.losesState = false := by
    rw [← Bool.not_eq_true, e.losesState_iff, not_or]
    exact ⟨hreset, hcheck⟩
  let t := takeException e addr s
  obtain ⟨hPR, -, -, -, -, -, hPOW, -⟩ := handlerMsr_entryMsr s.cfg e s.msr
  have hcontext : t.context = entryMsr s.cfg e s.msr := State.context_of_closed rfl
  have hkept {k : Nat} (hk : (returnMask ||| maskSF).getMsbD k = true) :
      (returnFrom (returnMask ||| maskSF) t).msr.getMsbD k = s.msr.getMsbD k := by
    rw [returnFrom_msr, getMsbD_restoredMsr, if_pos hk]
    exact getMsbD_saveImage_restored h64 hcopy hisi hlost s.msr hk
  have hentry {k : Nat} (hk : (returnMask ||| maskSF).getMsbD k = false) :
      (returnFrom (returnMask ||| maskSF) t).msr.getMsbD k = (entryMsr s.cfg e s.msr).getMsbD k := by
    rw [returnFrom_msr, getMsbD_restoredMsr, hk]
    rfl
  refine ⟨_, exec_rfid_supervisor h64 (hcontext ▸ hPR), fun k hk => ?_, ?_, ?_, ?_, rfl, rfl⟩
  · by_cases hlt : k < 64
    · exact hkept ((getMsbD_returnMask_or_maskSF k hlt).2 hk)
    · rw [BitVec.getMsbD_of_ge _ _ (by omega), BitVec.getMsbD_of_ge _ _ (by omega)]
  · exact (hentry (by decide)).trans hPOW
  · exact (hentry (by decide)).trans (msrILE_entryMsr s.cfg e s.msr)
  · have hSF : msrSF (returnFrom (returnMask ||| maskSF) t).msr = msrSF s.msr := hkept (by decide)
    calc (returnFrom (returnMask ||| maskSF) t).nia
        = addressIn s.cfg s.msr (addressIn s.cfg s.msr addr &&& ~~~3) := addressIn_congr s.cfg hSF _
      _ = addressIn s.cfg s.msr (addr &&& ~~~3) := addressIn_cleared_addressIn s.cfg s.msr addr

/-- Settles O54: the boundary step by step in the order of 60 R263; and where a window is open, what the step took is
what `settle` forced. -/
theorem asynchronousExceptions : Obligations.AsynchronousExceptions := by
  intro s henv hcs b takes
  have hbegin : beginStep s = b := beginStep_idle henv
  have hcheck : (beginStep s).checkstop = false := hbegin ▸ hcs
  have hstep {u : State} (h : boundaryException b = some u) : step s = .next (advance u) :=
    step_of_boundary hcheck (hbegin ▸ h)
  have htakes {e : Exc} {sreset mcheck pending : Bool} (info : Word)
      (h : boundaryException b = some (takeException e s.nia b)) (hinfo : e.srr1Info = info)
      (hsreset : (takeException e s.nia b).sresetReq = sreset)
      (hmcheck : (takeException e s.nia b).mcheckReq = mcheck)
      (hpending : (takeException e s.nia b).decPending = pending) : takes e info sreset mcheck pending :=
    ⟨_, hstep h, takeException_takenFrom e s.nia b, takeException_entryFrame e s.nia b,
      (saveImage_information _ e _).trans hinfo, hsreset, hmcheck, hpending⟩
  refine ⟨?_, fun u t hopen hawake hdue ht hevent => ?_⟩
  · have hbound := boundaryException_eq b
    have hcontext : b.context = s.context := rfl
    simp only [hcontext] at hbound
    split_ifs at hbound ⊢ with hsreset hmcheck hME hfloat hexternal hdec
    · exact htakes 0 hbound rfl (takeException_sresetReq ..) (takeException_mcheckReq ..) (takeException_decPending ..)
    all_goals have hnoReset := takeException_sresetReq_false (s := b) (Bool.eq_false_of_not_eq_true hsreset)
    · have htaken : machineCheckAt (msrME s.context) s.nia s.mcheckLost b =
          takeException (.machineCheck s.mcheckLost) s.nia b := if_pos hME
      exact htakes 0 (hbound.trans (congrArg some htaken)) rfl (hnoReset _ _)
        (takeException_mcheckReq ..) (takeException_decPending ..)
    · have hstopped : machineCheckAt (msrME s.context) s.nia s.mcheckLost b =
          { b with checkstop := true, mcheckReq := false } := if_neg hME
      rw [hstep (hbound.trans (congrArg some hstopped)), advance_checkstop rfl]
    all_goals have hnoCheck := takeException_mcheckReq_false (s := b) (Bool.eq_false_of_not_eq_true hmcheck)
    · exact htakes 0x00110000 hbound rfl (hnoReset _ _) (hnoCheck _ _) (takeException_decPending ..)
    · exact htakes 0 hbound rfl (hnoReset _ _) (hnoCheck _ _) (takeException_decPending ..)
    · exact htakes 0 hbound rfl (hnoReset _ _) (hnoCheck _ _) (takeException_decPending ..)
    · exact hbound
  · have hforced := step_of_due (s := s) hcheck (hbegin ▸ hawake) (hbegin ▸ hopen)
      (u := u) (by rw [hbegin]; exact hdue) ht
    rw [hbegin] at hforced
    refine hforced (hevent.imp_right (.imp_left ?_))
    rintro ⟨hfloat, w, i, rest, hw, hd, hi⟩
    exact ⟨hfloat, nextSynchronizes_of_fetch hw hd hi⟩

/-- Settles O4: the instruction's result, traced, then settled and advanced. -/
theorem stepRunsDecodedInstruction : Obligations.StepRunsDecodedInstruction := by
  intro s w i rest hc hb ha hw hd _ b c stepsTo
  have hsettled : stepsTo (settle (beginStep s)) := by
    refine (step_of_run hc hb ha).trans ?_
    rw [runInstruction_word hw, runWord_decoded hd]
    cases exec i c <;> rfl
  refine ⟨hsettled, fun hclosed => ?_⟩
  rwa [show settle (beginStep s) = fun t => t from funext (settle_closed hclosed)] at hsettled

/-- Settles O5: the illegal-instruction exception is taken, and no other is due in its place. -/
theorem undecodableWordIsIllegal : Obligations.UndecodableWordIsIllegal := by
  intro s w r hc hb hnone ha hw hd
  let b := beginInstruction (beginStep s)
  let c := b.clobber (msrIR b.context) 0
  let t := takeException (.program .illegal false) c.cia c
  have hcfg : c.cfg = s.cfg := by rw [State.clobber_cfg, beginInstruction_cfg, beginStep_cfg]
  have hmsr : c.msr = (beginStep s).msr := by rw [State.clobber_msr, beginInstruction_msr]
  have hcia : c.cia = b.cia := State.clobber_cia ..
  have hcontext : c.context = (beginStep s).context := by rw [State.clobber_context, beginInstruction_context]
  have hstep : step s = .next (advance t) := by
    rw [step_of_run hc hb ha, runInstruction_word hw, runWord_undecodable hd, raise, mapNext, settle_not_due hnone]
  refine ⟨_, hstep, ?_, ?_, ?_, ?_, ?_, ?_⟩
  · rw [advance_srr0, takeException_srr0, hcfg, hmsr, hcia]
  · rw [advance_srr1]
    exact saveImage_information c.cfg _ c.msr
  · rw [advance_nia, takeException_nia, hcfg, hcontext]
    rfl
  · rw [advance_msr, takeException_msr, hcfg, hmsr]
  · rw [advance_gpr, takeException_gpr, State.clobber_gpr, beginInstruction_gpr]
  · rw [advance_mem, takeException_mem, State.clobber_mem, beginInstruction_mem]

/-- Settles O13: each latch is cleared by its own exception, and the rest is the frame of entry. -/
theorem entryEffect : Obligations.EntryEffect := by
  intro e addr s t
  refine ⟨takeException_takenFrom e addr s, takeException_entryFrame e addr s, takeException_decPending_eq e addr s,
    takeException_sresetReq_eq e addr s, takeException_mcheckReq_eq e addr s, fun h => ?_⟩
  have hnone := fault?_eq_none h
  exact ⟨by rw [takeException_dsisr, hnone]; rfl, by rw [takeException_dar, hnone]; rfl⟩

end

section
/-! Proofs about the privileged and the user mode (61_each_exception.md R320, R341): what a step in user mode that
takes no exception leaves alone. -/

namespace Sys2Proof.Machine

/-! ## The environment's moves -/

/-- The environment's moves but a hard reset write its inputs and requests alone (70 R373). -/
theorem applyMoves_frame {l : List EnvMove} (hl : EnvMove.hardReset ∉ l) (s : State) :
    applyMoves l s = { s with
      extSignal := (applyMoves l s).extSignal, sresetReq := (applyMoves l s).sresetReq
      sresetLost := (applyMoves l s).sresetLost, mcheckReq := (applyMoves l s).mcheckReq
      mcheckLost := (applyMoves l s).mcheckLost, fex := (applyMoves l s).fex } := by
  induction l generalizing s with
  | nil => rfl
  | cons m rest ih =>
    rw [List.mem_cons, not_or] at hl
    refine (ih hl.2 (applyMove s m)).trans ?_
    cases m with
    | hardReset => exact absurd rfl hl.1
    | setExternal | requestSystemReset | requestMachineCheck | setFex => rfl

/-- With no hard reset among the moves, the beginning of a step writes inputs and requests, and the schedule. -/
theorem beginStep_frame {s : State} (h : noHardReset s) : beginStep s = { s with
    env := (beginStep s).env, extSignal := (beginStep s).extSignal, sresetReq := (beginStep s).sresetReq
    sresetLost := (beginStep s).sresetLost, mcheckReq := (beginStep s).mcheckReq
    mcheckLost := (beginStep s).mcheckLost, fex := (beginStep s).fex, taken := false } := by
  unfold noHardReset at h
  unfold beginStep
  split
  · rfl
  · rename_i moves rest henv
    rw [applyMoves_frame (by simpa [henv] using h)]

/-! ## The supervisor's part of the state -/

/-- The configuration and the registers that a program in user mode cannot write; SRR0 and SRR1 count where the
implementation's translated accesses do not modify them (70 R362). -/
def supervisorPart (s : State) : Config × Word × BitVec 32 × Word × BitVec 32 × Word × Option (Word × Word) :=
  (s.cfg, s.msr, s.dsisr, s.dar, s.ear, s.dabr, if s.cfg.srrClobber then none else some (s.srr0, s.srr1))

theorem supervisorPart_eq_iff {s t : State} : supervisorPart t = supervisorPart s ↔
    t.msr = s.msr ∧ t.dsisr = s.dsisr ∧ t.dar = s.dar ∧ t.ear = s.ear ∧ t.dabr = s.dabr ∧ t.cfg = s.cfg ∧
      (s.cfg.srrClobber = false → t.srr0 = s.srr0 ∧ t.srr1 = s.srr1) := by
  simp only [supervisorPart, Prod.mk.injEq]
  constructor
  · rintro ⟨hcfg, hmsr, hdsisr, hdar, hear, hdabr, hsrr⟩
    refine ⟨hmsr, hdsisr, hdar, hear, hdabr, hcfg, fun h => ?_⟩
    simpa [hcfg, h] using hsrr
  · rintro ⟨hmsr, hdsisr, hdar, hear, hdabr, hcfg, hsrr⟩
    refine ⟨hcfg, hmsr, hdsisr, hdar, hear, hdabr, ?_⟩
    cases h : s.cfg.srrClobber with
    | true => simp [hcfg, h]
    | false => simp [hcfg, h, hsrr h]

@[simp] theorem supervisorPart_clobber (b : Bool) (n : Nat) (s : State) :
    supervisorPart (s.clobber b n) = supervisorPart s := by
  unfold State.clobber
  split
  · rename_i h
    rw [Bool.and_eq_true] at h
    simp [supervisorPart, h.1]
  · rfl

@[simp] theorem supervisorPart_finish (s : State) : supervisorPart s.finish = supervisorPart s :=
  supervisorPart_clobber (msrDR s.context) 1 s

@[simp] theorem supervisorPart_advance (s : State) : supervisorPart (advance s) = supervisorPart s := by
  rw [advance_frame]; rfl

theorem supervisorPart_beginStep {s : State} (h : noHardReset s) :
    supervisorPart (beginStep s) = supervisorPart s := by
  rw [beginStep_frame h]; rfl

theorem supervisorPart_undefined (s : State) : supervisorPart (boundedlyUndefined s).complete = supervisorPart s := by
  obtain ⟨_, _, _, _, _, _, h, -⟩ := boundedlyUndefined_frame s
  rw [h]; rfl

@[simp] theorem supervisorPart_updateBase (s : State) (base : Option Reg) (ea : Word) :
    supervisorPart (s.updateBase base ea) = supervisorPart s := by cases base <;> rfl

@[simp] theorem supervisorPart_loadWords (s : State) (a : Access) (rd : Reg) (keep : Nat → Bool) (n : Nat)
    (t : State) : supervisorPart (loadWords s a rd keep n t) = supervisorPart t := by
  rw [loadWords_eq]; rfl

@[simp] theorem supervisorPart_condStore (a : Access) (data : List Byte) (s : State) :
    supervisorPart (condStore a data s) = supervisorPart s := by
  rw [condStore_frame]; rfl

@[simp] theorem supervisorPart_partialFloat (r : FReg) (n : Nat) (s : State) :
    supervisorPart (partialFloat r n s) = supervisorPart s := by
  unfold partialFloat
  split <;> rfl

@[simp] theorem supervisorPart_partialCond (a : Access) (data : List Byte) (n : Nat) (s : State) :
    supervisorPart (partialCond a data n s) = supervisorPart s := by
  unfold partialCond
  dsimp only
  split <;> rfl

@[simp] theorem supervisorPart_partialSend (a : Access) (v : Word) (n : Nat) (s : State) :
    supervisorPart (partialSend a v n s) = supervisorPart s := by
  unfold partialSend
  extract_lets moved byte sent
  split <;> rfl

/-! ## Instructions in user mode -/

/-- The next state a result answers, if any, is one in which an exception was taken, or has the supervisor's part
of `s`. -/
def Guarded (s : State) (r : Result) : Prop :=
  ∀ t, r = .next t → t.taken = true ∨ supervisorPart t = supervisorPart s

theorem Guarded.next {s t : State} (h : supervisorPart t = supervisorPart s) : Guarded s (.next t) := by
  rintro _ ⟨⟩
  exact .inr h

theorem Guarded.exception (s : State) (e : Exc) (addr : Word) (u : State) :
    Guarded s (.next (takeException e addr u)) := by
  rintro _ ⟨⟩
  exact .inl rfl

/-- In user mode admission lets no privileged instruction pass (61 R320). -/
theorem admit_guarded {i : Instr} {s : State} {k : State → Result} (hpr : msrPR s.context = true)
    (hk : i.privileged = false → Guarded s (k s)) : Guarded s (whenAdmitted i s k) := by
  unfold whenAdmitted
  split_ifs with hform hpriv
  · exact .exception s _ _ _
  · exact .exception s _ _ _
  · exact .exception s _ _ _
  · exact hk (by simpa [hpr] using hpriv)

/-- A machine check without `ME` leaves the supervisor's part as it stops the machine (61 R297). -/
theorem busError_guarded {s : State} {part : State → State} (h : supervisorPart (part s) = supervisorPart s) :
    Guarded s (busError part s) := by
  rcases busError_cases part s with hb | hb | hb <;> rw [hb]
  · rintro _ ⟨⟩
  · exact .exception s _ _ _
  · exact .next h

theorem perform_guarded {s : State} {a : Access} {part : Nat → State → State} {body : State → State}
    (hp : ∀ n, supervisorPart (part n s) = supervisorPart s)
    (hb : supervisorPart (body s) = supervisorPart s) : Guarded s (perform a part body s) := by
  rcases perform_cases a part body s with
    ⟨-, h⟩ | ⟨-, h⟩ | ⟨-, f, -, h⟩ | ⟨-, -, n, -, h⟩ | ⟨-, h⟩ <;> rw [h]
  · exact .next (supervisorPart_undefined s)
  · exact .exception s _ _ _
  · exact .exception s _ _ _
  · exact busError_guarded (hp n)
  · exact .next ((supervisorPart_finish _).trans hb)

/-- The XER is the one register whose number is not a supervisor-level one (30 R94). -/
theorem sprOf_user {c : Config} {n : SprNum} {r : Spr} (hn : sprSupervisor n = false) (hr : sprOf c n = some r) :
    r = .xer := by
  have hlevel : ∀ m ∈ [18, 19, 22, 26, 27, 282, 1013], (BitVec.ofNat 10 m).getLsbD 4 = true := by decide
  have hnot : n.toNat ∉ [18, 19, 22, 26, 27, 282, 1013] := fun h => by
    have := hlevel _ h
    rw [BitVec.ofNat_toNat, BitVec.setWidth_eq] at this
    exact Bool.false_ne_true (hn.symm.trans this)
  unfold sprOf at hr
  split at hr
  case h_1 => exact (Option.some.inj hr).symm
  case h_9 => cases hr
  all_goals exact absurd (by simp only [*]; decide) hnot

/-! ### The instructions -/

section
variable {i : Instr} {s : State} (hpr : msrPR s.context = true)
include hpr

/-- An instruction in user mode that performs its access whole or not at all. -/
theorem performWhole_guarded {a : Access} {body : State → State} (hb : supervisorPart (body s) = supervisorPart s) :
    Guarded s (whenAdmitted i s fun s => perform a partialNone body s) :=
  admit_guarded hpr fun _ => perform_guarded (fun _ => rfl) hb

theorem loadInt_guarded {n : Nat} {conv : Word → Word} {rd : Reg} {base : Option Reg} {ea : Word} :
    Guarded s (loadInt i n conv rd base ea s) :=
  performWhole_guarded hpr (supervisorPart_updateBase (s.setGpr rd _) base ea)

theorem loadReserve_guarded {n : Nat} {rd : Reg} {ea : Word} : Guarded s (loadReserve i n rd ea s) :=
  performWhole_guarded hpr rfl

theorem externalIn_guarded {rd : Reg} {ea : Word} : Guarded s (externalIn i rd ea s) :=
  performWhole_guarded hpr rfl

theorem cacheOp_guarded {store : Bool} {ea : Word} : Guarded s (cacheOp i store ea s) :=
  performWhole_guarded (body := fun s => s) hpr rfl

theorem storeInt_guarded {n : Nat} {v : Word} {base : Option Reg} {ea : Word} :
    Guarded s (storeInt i n v base ea s) :=
  admit_guarded hpr fun _ => perform_guarded (fun _ => rfl) (supervisorPart_updateBase (storeBytes _ _ s) base ea)

theorem storeFloat_guarded {n : Nat} {v : Word} {base : Option Reg} {ea : Word} :
    Guarded s (storeFloat i n v base ea s) :=
  admit_guarded hpr fun _ => perform_guarded (fun _ => rfl) (supervisorPart_updateBase (storeBytes _ _ s) base ea)

theorem loadFloat_guarded {n : Nat} {conv : Word → Word} {frd : FReg} {base : Option Reg} {ea : Word} :
    Guarded s (loadFloat i n conv frd base ea s) :=
  admit_guarded hpr fun _ =>
    perform_guarded (supervisorPart_partialFloat frd · s) (supervisorPart_updateBase (s.setFpr frd _) base ea)

theorem loadMultiple_guarded {rd : Reg} {ea : Word} : Guarded s (loadMultiple i rd ea s) :=
  admit_guarded hpr fun _ => perform_guarded (fun _ => supervisorPart_loadWords _ _ _ _ _ s)
    (supervisorPart_loadWords _ _ _ _ _ s)

theorem storeMultiple_guarded {rs : Reg} {ea : Word} : Guarded s (storeMultiple i rs ea s) :=
  admit_guarded hpr fun _ => perform_guarded (fun _ => rfl) rfl

theorem loadString_guarded {rd : Reg} {n : Nat} {ea : Word} : Guarded s (loadString i rd n ea s) := by
  refine admit_guarded hpr fun _ => ?_
  split
  · exact .next rfl
  · exact perform_guarded (fun _ => supervisorPart_loadWords _ _ _ _ _ s) (supervisorPart_loadWords _ _ _ _ _ s)

theorem storeString_guarded {rs : Reg} {n : Nat} {ea : Word} : Guarded s (storeString i rs n ea s) := by
  refine admit_guarded hpr fun _ => ?_
  split
  · exact .next rfl
  · exact perform_guarded (fun _ => rfl) rfl

theorem storeConditional_guarded {n : Nat} {v ea : Word} : Guarded s (storeConditional i n v ea s) := by
  refine admit_guarded hpr fun _ => ?_
  dsimp only
  split
  · exact .next (by simp)
  · exact perform_guarded (supervisorPart_partialCond _ _ · s) (supervisorPart_condStore _ _ s)

theorem externalOut_guarded {v ea : Word} : Guarded s (externalOut i v ea s) :=
  admit_guarded hpr fun _ => perform_guarded (supervisorPart_partialSend _ _ · s) rfl

theorem zeroBlock_guarded {ea : Word} : Guarded s (zeroBlock i ea s) :=
  admit_guarded hpr fun _ => perform_guarded (fun _ => rfl) rfl

theorem trapOn_guarded {cond : TrapTo} {x y : Word} : Guarded s (trapOn i cond x y s) := by
  refine admit_guarded hpr fun _ => ?_
  split
  · exact .exception s _ _ _
  · exact .next rfl

/-- In user mode a move to or from a special-purpose register reaches the XER alone. -/
theorem withSpr_guarded {n : SprNum} {k : Spr → State → Result} (hk : Guarded s (k .xer s)) :
    Guarded s (withSpr i n s k) := by
  refine admit_guarded hpr fun _ => ?_
  split_ifs with hlevel
  · exact .exception s _ _ _
  · split
    · rename_i r hr
      rw [sprOf_user (by simpa [hpr] using hlevel) hr]
      exact hk
    · exact .exception s _ _ _

end

/-- In user mode an instruction that takes no exception leaves the supervisor's part alone. -/
theorem exec_guarded (i : Instr) {s : State} (hpr : msrPR s.context = true) : Guarded s (exec i s) := by
  cases i
  all_goals rw [exec]
  case rfi | rfid | mtmsr | mtmsrd | mfmsr => exact admit_guarded hpr fun h => nomatch h
  case tdi | twi | tw | td => exact trapOn_guarded hpr
  case sc => exact admit_guarded hpr fun _ => .exception s _ _ _
  case sync | isync => exact admit_guarded hpr fun _ => .next rfl
  case mfspr | mtspr => exact withSpr_guarded hpr (.next rfl)
  case lwz | lwzu | lhz | lhzu | lha | lhau | ld | ldu | lwa | ldx | ldux | lwax | lwaux | lwbrx | lhbrx | lwzx
      | lwzux | lhzx | lhzux | lhax | lhaux | lbz | lbzu | lbzx | lbzux =>
    exact loadInt_guarded hpr
  case stw | stwu | sth | sthu | std | stdu | stdx | stdux | stwbrx | sthbrx | stwx | stwux | sthx | sthux | stb
      | stbu | stbx | stbux =>
    exact storeInt_guarded hpr
  case lfs | lfsu | lfd | lfdu | lfsx | lfsux | lfdx | lfdux => exact loadFloat_guarded hpr
  case stfs | stfsu | stfd | stfdu | stfsx | stfsux | stfdx | stfdux | stfiwx => exact storeFloat_guarded hpr
  case lmw => exact loadMultiple_guarded hpr
  case stmw => exact storeMultiple_guarded hpr
  case lswi => exact loadString_guarded hpr
  case lswx =>
    unfold execLswx
    split
    · exact loadString_guarded hpr
    · exact .exception s _ _ _
  case stswi | stswx => exact storeString_guarded hpr
  case lwarx | ldarx => exact loadReserve_guarded hpr
  case stwcxDot | stdcxDot => exact storeConditional_guarded hpr
  case eciwx => exact externalIn_guarded hpr
  case ecowx => exact externalOut_guarded hpr
  case dcbz => exact zeroBlock_guarded hpr
  case icbi | dcbi | dcbst | dcbf => exact cacheOp_guarded hpr

/-! ## A step in user mode -/

theorem runWord_guarded (w : InstWord) {s : State} (hpr : msrPR s.context = true) : Guarded s (runWord w s) := by
  intro t h
  obtain ⟨r, -, rfl⟩ | ⟨i, rest, u, -, hu, rfl⟩ := runWord_next h
  · exact .inl rfl
  · obtain ht | ⟨-, -, e, -, ht⟩ := traceAfter_cases i (msrSE s.context) (msrBE s.context) u <;> rw [ht]
    · exact exec_guarded i hpr u hu
    · exact .inl rfl

theorem runInstruction_guarded {s : State} (hpr : msrPR s.context = true) : Guarded s (runInstruction s) := by
  intro t h
  obtain ⟨c, -, rfl⟩ | ⟨-, h⟩ | ⟨w, -, h⟩ := runInstruction_next h
  · exact .inl rfl
  · exact busError_guarded (part := fun u => u) rfl t h
  · have hclobber : msrPR (s.clobber (msrIR s.context) 0).context = true := by rwa [State.clobber_context]
    exact (runWord_guarded w hclobber t h).imp_right (·.trans (supervisorPart_clobber _ _ _))

/-- In user mode, with no `mtmsr` window open, a step takes an exception or leaves the supervisor's part alone. -/
theorem step_guarded {s t : State} (hw : s.window = []) (hreset : noHardReset s) (hpr : msrPR s.msr = true)
    (h : step s = .next t) : t.taken = true ∨ supervisorPart t = supervisorPart s := by
  have hpart : supervisorPart (beginStep s) = supervisorPart s := supervisorPart_beginStep hreset
  have hclosed : (beginStep s).window = [] := by rw [beginStep_frame hreset]; exact hw
  have hmsr : (beginStep s).msr = s.msr := by rw [beginStep_frame hreset]
  have huser : msrPR (beginInstruction (beginStep s)).context = true := by
    rw [beginInstruction_context, State.context_of_closed hclosed, hmsr, hpr]
  rw [← hpart]
  obtain ⟨-, rfl⟩ | ⟨-, ⟨u, hu, rfl⟩ | ⟨-, ⟨-, rfl⟩ | ⟨-, u, hu, rfl⟩⟩⟩ := step_next h
  · exact .inr rfl
  · obtain ⟨m, hm⟩ := boundaryException_some hu
    obtain rfl | ⟨e, -, rfl⟩ := boundaryExceptionIn_cases hm
    · exact .inr (supervisorPart_advance _)
    · exact .inl (advance_taken _)
  · exact .inr (supervisorPart_advance _)
  · rw [settle_closed hclosed, advance_taken, supervisorPart_advance]
    exact runInstruction_guarded huser u hu

end Sys2Proof.Machine

open Sys2Proof Sys2Proof.Machine

/-- Settles O17: each part of a step in user mode takes an exception or leaves the supervisor's part alone. -/
theorem userModeKeepsSupervisorState : Obligations.UserModeKeepsSupervisorState := by
  intro s t hw hreset hpr h htaken
  obtain ht | hpart := step_guarded hw hreset hpr h
  · exact absurd (htaken.symm.trans ht) Bool.false_ne_true
  · exact supervisorPart_eq_iff.1 hpart

/-- Settles O16: a step that takes no exception leaves the MSR alone, and `PR` with it. -/
theorem userModeLeftOnlyByException : Obligations.UserModeLeftOnlyByException := by
  intro s t hw hreset hpr h hleft
  by_contra htaken
  obtain ⟨hmsr, -⟩ := userModeKeepsSupervisorState s t hw hreset hpr h (Bool.eq_false_of_not_eq_true htaken)
  rw [hmsr, hpr] at hleft
  cases hleft

end

section
/-! Proofs about instructions that are refused before they do anything (61_each_exception.md R317, R319, R320, R322),
and about the system call (R330). -/

namespace Sys2Proof.Machine

/-! ## Exceptions that answer no request -/

/-- The exception is taken for a request that its entry cancels (60 R270). -/
def Exc.requested : Exc → Bool
  | .systemReset _ | .machineCheck _ | .decrementer => true
  | _ => false

/-- The exception `e` was taken from the state `s` with SRR0 from `addr`, and nothing but the registers of entry has
changed; SRR1 bits 33-36 and 42-47 are its information. -/
structure TakenAlone (s t : State) (e : Exc) (addr : Word) : Prop where
  entry : TakenFrom s t e addr
  frame : EntryFrame s t
  info : t.srr1 &&& 0x783F0000 = e.srr1Info
  nia : t.nia = vectorBase s.cfg (msrIP s.context) + e.offset
  decPending : t.decPending = s.decPending
  sresetReq : t.sresetReq = s.sresetReq
  mcheckReq : t.mcheckReq = s.mcheckReq

theorem takeException_alone {e : Exc} (he : e.requested = false) (addr : Word) (s : State) :
    TakenAlone s (takeException e addr s) e addr where
  entry := takeException_takenFrom e addr s
  frame := takeException_entryFrame e addr s
  info := saveImage_information s.cfg e s.msr
  nia := rfl
  decPending := (takeException_decPending_eq e addr s).trans (if_neg (by rintro rfl; cases he))
  sresetReq := (takeException_sresetReq_eq e addr s).trans (if_neg (by rintro (rfl | rfl) <;> cases he))
  mcheckReq := (takeException_mcheckReq_eq e addr s).trans (if_neg (by rintro (rfl | rfl) <;> cases he))

/-- Only DSI and alignment exceptions write DSISR and DAR (60 R270). -/
theorem TakenAlone.fault_eq {s t : State} {e : Exc} {addr : Word} (h : TakenAlone s t e addr) (he : e.fault? = none) :
    t.dsisr = s.dsisr ∧ t.dar = s.dar := by
  obtain ⟨-, -, -, -, hdsisr, hdar, -⟩ := h.entry
  rw [hdsisr, hdar, he]
  exact ⟨rfl, rfl⟩

/-! ## Admission -/

theorem admit_illegal {i : Instr} {s : State} (h : i.provided s.cfg = false ∨ i.validForm = false)
    (k : State → Result) : whenAdmitted i s k = raise (.program .illegal false) s := by
  rcases h with h | h <;> simp [whenAdmitted, h]

theorem admit_privileged {i : Instr} {s : State} (hp : i.provided s.cfg = true) (hv : i.validForm = true)
    (hi : i.privileged = true) (hpr : msrPR s.context = true) (k : State → Result) :
    whenAdmitted i s k = raise (.program .privileged false) s := by
  simp [whenAdmitted, hp, hv, hi, hpr]

theorem admit_unavailable {i : Instr} {s : State} (hp : i.provided s.cfg = true) (hv : i.validForm = true)
    (hi : i.privileged = false) (hf : i.isFloat = true) (hfp : msrFP s.context = false) (k : State → Result) :
    whenAdmitted i s k = raise .fpUnavailable s := by
  simp [whenAdmitted, hp, hv, hi, hf, hfp]

/-- Admission comes first in every instruction but `lswx`, whose form depends on the XER (61 R319). -/
theorem exec_admits (i : Instr) (s : State) : (∃ rd ra rb, i = .lswx rd ra rb) ∨
    (formValid s i = i.validForm ∧ ∃ k, exec i s = whenAdmitted i s k) := by
  cases i with
  | lswx rd ra rb => exact .inl ⟨rd, ra, rb, rfl⟩
  | _ =>
    refine .inr ⟨rfl, ?_⟩
    simp only [exec_tdi, exec_twi, exec_sc, exec_rfid, exec_rfi, exec_isync, exec_tw, exec_td, exec_mfmsr,
      exec_mtmsr, exec_mtmsrd, exec_mfspr, exec_mtspr, exec_sync, exec_lwz, exec_lwzu, exec_stw, exec_stwu,
      exec_lhz, exec_lhzu, exec_lha, exec_lhau, exec_sth, exec_sthu, exec_lmw, exec_stmw, exec_lfs, exec_lfsu,
      exec_lfd, exec_lfdu, exec_stfs, exec_stfsu, exec_stfd, exec_stfdu, exec_ld, exec_ldu, exec_lwa, exec_std,
      exec_stdu, exec_lwarx, exec_ldarx, exec_ldx, exec_ldux, exec_stdx, exec_stdux, exec_lwax, exec_lwaux,
      exec_lswi, exec_stswx, exec_stswi, exec_stwcxDot, exec_stdcxDot, exec_lwbrx, exec_stwbrx, exec_lhbrx,
      exec_sthbrx, exec_eciwx, exec_ecowx, exec_dcbz, exec_lwzx, exec_lwzux, exec_stwx, exec_stwux, exec_lhzx,
      exec_lhzux, exec_lhax, exec_lhaux, exec_sthx, exec_sthux, exec_lfsx, exec_lfsux, exec_lfdx, exec_lfdux,
      exec_stfsx, exec_stfsux, exec_stfdx, exec_stfdux, exec_stfiwx, exec_lbz, exec_lbzu, exec_stb, exec_stbu,
      exec_lbzx, exec_lbzux, exec_stbx, exec_stbux, exec_icbi, exec_dcbi, exec_dcbst, exec_dcbf, execSc, execRfid,
      execRfi, execIsync, execMfmsr, execMtmsr, execMtmsrd, execMfspr, execMtspr, execSync, trapOn, withSpr,
      loadInt, storeInt, loadFloat, storeFloat, loadMultiple, storeMultiple, loadString, storeString, loadReserve,
      storeConditional, externalIn, externalOut, zeroBlock, cacheOp]
    exact ⟨_, rfl⟩

/-- An instruction that is not provided or of invalid form is illegal. -/
theorem exec_illegal {i : Instr} {s : State} (h : i.provided s.cfg = false ∨ formValid s i = false) :
    exec i s = raise (.program .illegal false) s := by
  obtain ⟨rd, ra, rb, rfl⟩ | ⟨hform, k, hk⟩ := exec_admits i s
  · obtain h | h := h
    · cases h
    · exact (exec_lswx rd ra rb s).trans (if_neg (by simpa [formValid] using h))
  · rw [hk, admit_illegal (hform ▸ h)]

theorem validForm_of_privileged {i : Instr} (h : i.privileged = true) : i.validForm = true := by
  cases i with
  | rfi | rfid | mtmsr | mtmsrd | mfmsr | dcbi => rfl
  | _ => cases h

theorem privileged_of_isFloat {i : Instr} (h : i.isFloat = true) : i.privileged = false := by
  cases i with
  | rfi | rfid | mtmsr | mtmsrd | mfmsr | dcbi => cases h
  | _ => rfl

theorem exec_privileged {i : Instr} {s : State} (hp : i.provided s.cfg = true) (hi : i.privileged = true)
    (hpr : msrPR s.context = true) : exec i s = raise (.program .privileged false) s := by
  obtain ⟨rd, ra, rb, rfl⟩ | ⟨-, k, hk⟩ := exec_admits i s
  · cases hi
  · rw [hk, admit_privileged hp (validForm_of_privileged hi) hi hpr]

theorem exec_unavailable {i : Instr} {s : State} (hp : i.provided s.cfg = true) (hv : i.validForm = true)
    (hf : i.isFloat = true) (hfp : msrFP s.context = false) : exec i s = raise .fpUnavailable s := by
  obtain ⟨rd, ra, rb, rfl⟩ | ⟨-, k, hk⟩ := exec_admits i s
  · cases hf
  · rw [hk, admit_unavailable hp hv (privileged_of_isFloat hf) hf hfp]

/-! ## Special-purpose registers -/

/-- Only the eight numbers of 30 R94 have a register. -/
theorem sprOf_eq_none {c : Config} {n : SprNum} (h : n ∉ [1, 18, 19, 22, 26, 27, 282, 1013]) :
    sprOf c n = none := by
  have hne : n.toNat ∉ [1, 18, 19, 22, 26, 27, 282, 1013] := fun hn =>
    h (by simpa [← BitVec.toNat_inj] using hn)
  unfold sprOf
  split
  case h_9 => rfl
  all_goals exact absurd (by simp only [*]; decide) hne

section
variable {i : Instr} {n : SprNum} {s : State} (hadm : ∀ k, whenAdmitted i s k = k s)
include hadm

/-- In user mode a supervisor-level number is privileged, defined or not (93 U3). -/
theorem withSpr_privileged (hn : sprSupervisor n = true) (hpr : msrPR s.context = true)
    (k : Spr → State → Result) : withSpr i n s k = raise (.program .privileged false) s := by
  rw [withSpr, hadm, hn, hpr]
  rfl

/-- Any other number that has no register is illegal (93 U3). -/
theorem withSpr_illegal (hn : sprOf s.cfg n = none) (h : msrPR s.context = false ∨ sprSupervisor n = false)
    (k : Spr → State → Result) : withSpr i n s k = raise (.program .illegal false) s := by
  have hallowed : (sprSupervisor n && msrPR s.context) = false := by rcases h with h | h <;> simp [h]
  rw [withSpr, hadm, hallowed, hn]
  rfl

end

/-- A number refused to every instruction is refused to both moves. -/
theorem exec_spr_refused {n : SprNum} {s : State} {result : Result} (r : Reg)
    (h : ∀ i k, (∀ k, whenAdmitted i s k = k s) → withSpr i n s k = result) :
    exec (.mfspr r n) s = result ∧ exec (.mtspr n r) s = result := by
  rw [exec_mfspr, execMfspr, exec_mtspr, execMtspr]
  exact ⟨h _ _ (admit_plain rfl rfl rfl rfl), h _ _ (admit_plain rfl rfl rfl rfl)⟩

/-- A program exception of the instruction alone. -/
theorem raise_program {r : Result} {s : State} {cause : ProgramCause} {info : Word}
    (h : r = raise (.program cause false) s) (hinfo : (Exc.program cause false).srr1Info = info) :
    ∃ t, r = .next t ∧ TakenFrom s t (.program cause false) s.cia ∧ EntryFrame s t ∧
      t.srr1 &&& 0x783F0000 = info ∧ t.nia = vectorBase s.cfg (msrIP s.context) + 0x700 ∧
      t.decPending = s.decPending ∧ t.sresetReq = s.sresetReq ∧ t.mcheckReq = s.mcheckReq :=
  have ht := takeException_alone (e := .program cause false) rfl s.cia s
  ⟨_, h, ht.entry, ht.frame, hinfo ▸ ht.info, ht.nia, ht.decPending, ht.sresetReq, ht.mcheckReq⟩

end Sys2Proof.Machine

open Sys2Proof Sys2Proof.Machine

/-- Settles O26: privileged instructions by their admission, moves to and from special-purpose registers by the level
of the number before its definition. -/
theorem privilegedInUserMode : Obligations.PrivilegedInUserMode := by
  intro s r ra rb n refused
  have hprivileged {i : Instr} (h : exec i s = raise (.program .privileged false) s) :
      refused i .privileged 0x00040000 := raise_program h rfl
  have hillegal {i : Instr} (h : exec i s = raise (.program .illegal false) s) :
      refused i .illegal 0x00080000 := raise_program h rfl
  refine ⟨fun hpr => ⟨fun i hi hp => hprivileged (exec_privileged hp ?_ hpr), fun hn => ?_⟩, fun hn hallowed => ?_⟩
  · have hall : ([Instr.rfi, .rfid, .mtmsr r, .mtmsrd r, .mfmsr r, .dcbi ra rb].all Instr.privileged) = true := rfl
    exact List.all_eq_true.1 hall i hi
  · obtain ⟨hread, hwrite⟩ := exec_spr_refused r fun i k hadm => withSpr_privileged hadm hn hpr k
    exact ⟨hprivileged hread, hprivileged hwrite⟩
  · obtain ⟨hread, hwrite⟩ := exec_spr_refused r fun i k hadm =>
      withSpr_illegal hadm (sprOf_eq_none hn) hallowed k
    exact ⟨hillegal hread, hillegal hwrite⟩

/-- Settles O27: admission refuses the instruction, or `lswx` its form. -/
theorem illegalForms : Obligations.IllegalForms :=
  fun _ _ h => raise_program (exec_illegal h) rfl

/-- Settles O28: admission refuses the instruction before its access is looked at. -/
theorem floatUnavailable : Obligations.FloatUnavailable := by
  intro s i hf hp hv hfp
  have ht := takeException_alone (e := .fpUnavailable) rfl s.cia s
  obtain ⟨hdsisr, hdar⟩ := ht.fault_eq rfl
  exact ⟨_, exec_unavailable hp hv hf hfp, ht.entry, ht.nia, ht.frame, ht.info, hdsisr, hdar, ht.decPending,
    ht.sresetReq, ht.mcheckReq⟩

/-- Settles O18: `sc` is always admitted, and does nothing but take its exception. -/
theorem systemCallTaken : Obligations.SystemCallTaken := by
  intro s
  have hexec : exec .sc s = .next (takeException .systemCall (s.cia + 4) s) := by
    rw [exec_sc, execSc, admit_plain rfl rfl rfl rfl]
  have ht := takeException_alone (e := .systemCall) rfl (s.cia + 4) s
  obtain ⟨hdsisr, hdar⟩ := ht.fault_eq rfl
  exact ⟨_, hexec, ht.entry, ht.nia, ht.info, ht.frame, hdsisr, hdar, ht.decPending, ht.sresetReq, ht.mcheckReq⟩

end

section
/-! Proofs about storage instructions that do not complete as they should (61_each_exception.md R298 to R301, R311 to
R315): the alignment exception, the DSI exception, absent memory, and boundedly-undefined results. -/

namespace Sys2Proof.Machine

/-! ## An exception after partial execution (20 R71, R76) -/

/-- What partial execution may have done is what it may have done with an exception taken after it. -/
theorem abandons_takeException {s u : State} {a : Access} (h : PartialFrame s a u) {e : Exc} (addr : Word)
    (hdec : e ≠ .decrementer) (hreset : ∀ lost, e ≠ .systemReset lost) :
    Abandons s (takeException e addr u) a := by
  obtain ⟨-, hgpr, hfpr, hmem, hcr, hout⟩ := h.abandons
  refine ⟨?_, hgpr, hfpr, hmem, hcr, hout⟩
  rw [h.fields]
  cases e with
  | decrementer => exact absurd rfl hdec
  | systemReset lost => exact absurd rfl (hreset lost)
  | _ => rfl

theorem raise_partial {s u : State} {a : Access} (h : PartialFrame s a u) (e : Exc) :
    raise e u = .next (takeException e s.cia u) := by
  have hcia : u.cia = s.cia := by rw [h.fields]
  rw [raise, hcia]

/-- The exception `e` of a storage instruction whose access is `a`: taken from the state `s`, with the partial
effects of the instruction at most. -/
structure TakenAbandoning (s t : State) (a : Access) (e : Exc) : Prop where
  entry : TakenFrom s t e s.cia
  nia : t.nia = vectorBase s.cfg (msrIP s.context) + e.offset
  info : t.srr1 &&& 0x783F0000 = e.srr1Info
  abandons : Abandons s t a
  mcheckReq : t.mcheckReq = s.mcheckReq
  checkstop : t.checkstop = s.checkstop

theorem takeException_abandoning {s u : State} {a : Access} (h : PartialFrame s a u) {e : Exc}
    (he : e.requested = false) : TakenAbandoning s (takeException e s.cia u) a e where
  entry := takenFrom_of_partialFrame h e s.cia
  nia := by
    obtain ⟨-, -, -, hnia, -⟩ := takenFrom_of_partialFrame h e s.cia
    exact hnia
  info := saveImage_information _ e _
  abandons := abandons_takeException h s.cia (by rintro rfl; cases he) (by rintro lost rfl; cases he)
  mcheckReq := by
    rw [(takeException_alone he s.cia u).mcheckReq, h.fields]
  checkstop := by rw [takeException_checkstop, h.fields]

/-! ## The alignment exception -/

/-- A storage instruction whose access the alignment rules end in the exception takes it. -/
theorem exec_alignment {s : State} {i : Instr} {a : Access} (ha : accessOf s i = some a)
    (hadm : admitted s i = true) (hc : s.alignChoice a = .exception) :
    ∃ t, exec i s = .next t ∧ TakenAbandoning s t a (.alignment (s.alignImage a) a.ea) := by
  obtain ⟨-, -, -, hcorrect, -⟩ | ⟨part, body, hpart, hexec⟩ := exec_performs ha hadm
  · rw [hc] at hcorrect
    cases hcorrect
  · rw [hexec, perform_of_exception hc, raise_partial (hpart _)]
    exact ⟨_, rfl, takeException_abandoning (hpart _) rfl⟩

/-- An address formed in a mode is one of that mode. -/
theorem addressIn_addressIn (c : Config) (m a : Word) : addressIn c m (addressIn c m a) = addressIn c m a := by
  unfold addressIn
  split
  · rfl
  · exact low32_low32 a

/-- The first byte of an access lies at its effective address. -/
theorem byteEa_zero {s : State} {i : Instr} {a : Access} (ha : accessOf s i = some a) : s.byteEa a 0 = a.ea := by
  have hzero : a.ea + BitVec.ofNat 64 0 = a.ea := BitVec.add_zero _
  rw [State.byteEa, hzero, accessOf_ea ha]
  exact addressIn_addressIn _ _ _

/-- In 32-bit mode an effective address has no high-order half (20 R60). -/
theorem extractLsb'_high_ea {s : State} {i : Instr} {a : Access} (ha : accessOf s i = some a)
    (hsf : msrSF s.context = false) : a.ea.extractLsb' 32 32 = 0 := by
  have hlow : low32 a.ea = a.ea := by
    have hmode : s.maskEa a.ea = low32 a.ea := if_neg (by simp [hsf])
    have hzero : a.ea + BitVec.ofNat 64 0 = a.ea := BitVec.add_zero _
    rw [← hmode]
    exact (congrArg s.maskEa hzero.symm).trans (byteEa_zero ha)
  rw [← hlow, low32_eq_setWidth]
  ext k hk
  simp

/-! ## The DSI exception -/

/-- A storage instruction whose access meets a DSI condition takes the exception, or is a store conditional that fails
instead. -/
theorem exec_dsi {s : State} {i : Instr} {a : Access} {f : DataFault} (ha : accessOf s i = some a)
    (hadm : admitted s i = true) (hc : s.alignChoice a = .correct) (hf : s.dataFault a = some f) :
    FailsInstead s i a ∨ ∃ t, exec i s = .next t ∧ TakenAbandoning s t a (.dsi f.dsisr f.dar) := by
  refine (exec_performs ha hadm).imp_right ?_
  rintro ⟨part, body, hpart, hexec⟩
  rw [hexec, perform_of_dataFault hc hf, raise_partial (hpart _)]
  exact ⟨_, rfl, takeException_abandoning (hpart _) rfl⟩

/-- A failed store conditional without the reservation changes CR0 alone, beside what its end does. -/
theorem condStore_failed {s : State} (h : s.reservation = none) (a : Access) (data : List Byte) :
    condStore a data s =
      { s with cr := 0#3 ++ BitVec.ofBool (xerSO s.xer) ++ s.cr.extractLsb' 0 28 } := by
  have hmem : (condStore a data s).mem = s.mem := by rw [condStore_mem, h]; rfl
  have hcr : condStoreCr0 false s.xer = 0#3 ++ BitVec.ofBool (xerSO s.xer) := rfl
  rw [condStore_frame, hmem, h, Option.isSome_none, hcr, withCr0, ← h]

/-! ## Absent memory -/

/-- A store conditional that fails touches no memory. -/
theorem FailsInstead.firstAbsent {s : State} {i : Instr} {a : Access} (h : FailsInstead s i a) :
    s.firstAbsent a = none := by
  obtain ⟨hcls, hstore, hres, -⟩ := h
  simp [State.firstAbsent, State.touched, hcls, hstore, hres]

/-- A storage instruction whose access finds no memory meets a bus error, with its partial effects at most. -/
theorem exec_busError {s : State} {i : Instr} {a : Access} (ha : accessOf s i = some a)
    (hadm : admitted s i = true) (hc : s.alignChoice a = .correct) (hf : s.dataFault a = none)
    (habsent : (s.firstAbsent a).isSome = true) :
    ∃ part, PartialFrame s a (part s) ∧ exec i s = busError part s := by
  obtain hfails | ⟨part, body, hpart, hexec⟩ := exec_performs ha hadm
  · rw [hfails.firstAbsent] at habsent
    cases habsent
  · obtain ⟨n, hn⟩ := Option.isSome_iff_exists.1 habsent
    refine ⟨part n, hpart n, ?_⟩
    rw [hexec]
    simp [perform, hc, hf, hn]

/-- Checkstop after partial execution leaves what it may have done, and the special registers as they were. -/
theorem abandons_checkstop {s u : State} {a : Access} (h : PartialFrame s a u) :
    Abandons s { u with checkstop := true, mcheckReq := false } a := by
  obtain ⟨-, hgpr, hfpr, hmem, hcr, hout⟩ := h.abandons
  refine ⟨?_, hgpr, hfpr, hmem, hcr, hout⟩
  rw [h.fields]

/-! ## Boundedly-undefined results -/

/-- The outcome is undefined only by the policy's answer, for an access that meets item (c) of 61 R311 and no item
without an alternative. -/
theorem alignChoice_undefined {s : State} {a : Access} (h : s.alignChoice a = .undefined) :
    alignPolicy s.cfg.alignRules (encode a.instr) a.ea s.context = some .undefined ∧
      s.alignForced a = false ∧ a.alignRequired = true := by
  unfold State.alignChoice at h
  cases hforced : s.alignForced a with
  | true => simp [hforced] at h
  | false =>
    cases hrequired : a.alignRequired with
    | false =>
      simp only [hforced, hrequired, Bool.false_eq_true, if_false] at h
      split at h
      · split at h <;> cases h
      · split at h
        · split at h <;> cases h
        · cases h
    | true =>
      simp only [hforced, hrequired, Bool.false_eq_true, if_false, if_true] at h
      split at h
      · exact ⟨by assumption, rfl, rfl⟩
      · split at h <;> cases h
      · cases h

/-- The accesses that meet item (c): multiples and external control off a word boundary, reservation instructions off
one of their length. -/
theorem alignRequired_cases {a : Access} (h : a.alignRequired = true) :
    (a.cls = .multiple ∧ a.ea.toNat % 4 ≠ 0) ∨ (a.cls = .external ∧ a.ea.toNat % 4 ≠ 0) ∨
      (a.cls = .reserve ∧ a.ea.toNat % a.len ≠ 0) := by
  unfold Access.alignRequired at h
  split at h
  · exact .inl ⟨by assumption, by simpa [Access.alignedTo] using h⟩
  · exact .inr (.inl ⟨by assumption, by simpa [Access.alignedTo] using h⟩)
  · exact .inr (.inr ⟨by assumption, by simpa [Access.alignedTo] using h⟩)
  · cases h

/-- With an undefined outcome the instruction goes on, with boundedly-undefined results. -/
theorem exec_undefined {s : State} {i : Instr} {a : Access} (ha : accessOf s i = some a)
    (hadm : admitted s i = true) (hc : s.alignChoice a = .undefined) :
    exec i s = .next (boundedlyUndefined s).complete := by
  obtain ⟨-, -, -, hcorrect, -⟩ | ⟨part, body, hpart, hexec⟩ := exec_performs ha hadm
  · rw [hc] at hcorrect
    cases hcorrect
  · rw [hexec]
    simp [perform, hc]

end Sys2Proof.Machine

open Sys2Proof Sys2Proof.Machine

/-- Settles O42: the exception, after what partial execution may have done. -/
theorem alignmentTaken : Obligations.AlignmentTaken := by
  intro s i a ha hadm hc
  obtain ⟨t, hexec, ht⟩ := exec_alignment ha hadm hc
  obtain ⟨-, -, -, -, -, hdar, -⟩ := ht.entry
  exact ⟨t, hexec, ht.entry, hdar, ht.nia, ht.info, ht.abandons, ht.mcheckReq, ht.checkstop⟩

/-- Settles O49: the DAR is an address of the current mode. -/
theorem alignmentDar : Obligations.AlignmentDar := by
  intro s i a ha hadm hc
  obtain ⟨t, hexec, ht⟩ := exec_alignment ha hadm hc
  obtain ⟨-, -, -, -, -, hdar, -, htaken⟩ := ht.entry
  have hdar : t.dar = a.ea := hdar
  exact ⟨t, hexec, htaken, ht.nia, hdar, byteEa_zero ha, fun _ hsf => hdar ▸ extractLsb'_high_ea ha hsf⟩

/-- Settles O43: the exception, after what partial execution may have done, or the failure of a store conditional. -/
theorem dsiTaken : Obligations.DsiTaken := by
  intro s i a f ha hadm hc hf mayFail
  obtain ⟨hcls, hstore, hres, -, hfaults, data, hexec⟩ | ⟨t, hexec, ht⟩ := exec_dsi ha hadm hc hf
  · rw [State.storeFaults, Bool.and_eq_true, Bool.not_eq_true'] at hfaults
    rw [condStore_failed hres] at hexec
    refine ⟨_, hexec, .inr ⟨⟨hcls, hstore, hres, hfaults⟩, resumes_finish rfl rfl rfl rfl rfl rfl rfl, ?_, ?_⟩⟩
    · rw [State.finish_eq]
    · rw [State.finish_cr]
  · exact ⟨t, hexec, .inl ⟨ht.entry, ht.nia, ht.info, ht.abandons, ht.mcheckReq, ht.checkstop⟩⟩

/-- Settles O46: the bus error by what the platform makes of it and by `ME`. -/
theorem absentMemory : Obligations.AbsentMemory := by
  intro s i a ha hadm hc hf habsent
  obtain ⟨part, hpart, hexec⟩ := exec_busError ha hadm hc hf habsent
  rw [hexec]
  refine ⟨fun hcheck hme => ⟨takeException (.machineCheck s.cfg.busErrorLost) s.cia (part s), ?_,
      takenFrom_of_partialFrame hpart _ s.cia, abandons_takeException hpart s.cia nofun nofun, ?_⟩,
    fun hcheck hme => ⟨{ part s with checkstop := true, mcheckReq := false }, ?_, rfl, ?_, ?_, ?_, ?_, ?_, ?_,
      abandons_checkstop hpart⟩, fun hnone => ?_⟩
  · rw [busError, if_pos hcheck, machineCheckAt, if_pos hme]
  · rw [takeException_checkstop, hpart.fields]
  · rw [busError, if_pos hcheck, machineCheckAt, if_neg (by simp [hme])]
  all_goals first | rw [hpart.fields] | exact if_neg (by simp [hnone])

/-- Settles O48: the policy asked for it, and the frame is that of boundedly-undefined results. -/
theorem undefinedAlignment : Obligations.UndefinedAlignment := by
  intro s i a ha hadm hc
  obtain ⟨hpolicy, hforced, hrequired⟩ := alignChoice_undefined hc
  rw [accessOf_instr ha] at hpolicy
  obtain ⟨gpr, fpr, cr, xer, reservation, mem, hfields, hfpr, hmem⟩ := boundedlyUndefined_frame s
  have hexec := exec_undefined ha hadm hc
  rw [hfields] at hexec
  refine ⟨hpolicy, (alignRequired_cases hrequired).imp_left fun ⟨hcls, halign⟩ => ⟨hcls, ?_, halign⟩, _, hexec, rfl,
    rfl, hfpr, hmem⟩
  by_contra hle
  simp [State.alignForced, hcls, hle] at hforced

end

section
/-! Proofs about the DSI conditions of an access (61_each_exception.md R300 to R304): the bits its translation reports,
and the match of the data address breakpoint. -/

namespace Sys2Proof.Machine

/-! ## The DSI of an access, by its conditions -/

/-- `EAR[E]` disables the access (10 R42). -/
def State.disables (s : State) (a : Access) : Bool := decide (a.cls = .external) && !earE s.ear

/-- The DSISR bits of the conditions that an access meets beside a DABR match (61 R302). -/
def State.otherConditions (s : State) (a : Access) : BitVec 32 :=
  (match s.firstFault a with
    | some i => conditionBits s.cfg a.cls (s.byteXlate a i)
    | none => 0) ||| (if s.disables a then dsiExternal else 0)

/-- The DSISR bit of a store. -/
def Access.storeBit (a : Access) : BitVec 32 := if a.store then dsiStore else 0

/-- The DSI an access raises with or without a DABR match. -/
def State.faultWith (s : State) (a : Access) (brk : Bool) : Option DataFault :=
  if s.otherConditions a == 0 && !brk then none
  else some
    { dsisr := s.permittedBits (s.otherConditions a) ||| (if brk then dsiBreakpoint else 0) ||| a.storeBit
      dar := s.faultDar a (s.otherConditions a) brk ((s.firstFault a).getD 0)
      reach := if s.otherConditions a &&& dsiDirectStore != 0 then a.len else (s.firstFault a).getD a.len }

theorem dataFault_eq_faultWith (s : State) (a : Access) : s.dataFault a = s.faultWith a (s.dabrMatch a) := rfl

/-- Without a DABR an access matches none. -/
theorem dabrMatch_absent {s : State} (h : s.cfg.hasDabr = false) (a : Access) : s.dabrMatch a = false := by
  simp [State.dabrMatch, State.dabrConditions, h]

theorem faultWith_clear {s : State} {a : Access} (h : s.otherConditions a = 0) : s.faultWith a false = none := by
  simp [State.faultWith, h]

theorem faultWith_faulting {s : State} {a : Access} (h : s.otherConditions a ≠ 0) :
    ∃ f, s.faultWith a false = some f ∧ f.dsisr = s.permittedBits (s.otherConditions a) ||| a.storeBit ∧
      f.dar = s.faultDar a (s.otherConditions a) false ((s.firstFault a).getD 0) := by
  rw [State.faultWith, if_neg (by simpa using h)]
  exact ⟨_, rfl, by simp, rfl⟩

theorem faultWith_breakpoint (s : State) (a : Access) :
    ∃ f, s.faultWith a true = some f ∧
      f.dsisr = s.permittedBits (s.otherConditions a) ||| dsiBreakpoint ||| a.storeBit ∧
      f.dar = if a.doubleWord then a.ea &&& ~~~7 else a.ea &&& ~~~3 := by
  simp [State.faultWith, State.faultDar]

/-! ## The first byte at fault -/

theorem firstFault_eq_some {s : State} {a : Access} {n : Nat} (hn : n < a.span)
    (hbefore : ∀ i, i < n → conditionBits s.cfg a.cls (s.byteXlate a i) = 0)
    (hat : conditionBits s.cfg a.cls (s.byteXlate a n) ≠ 0) : s.firstFault a = some n := by
  rw [State.firstFault, List.find?_range_eq_some]
  exact ⟨by simpa using hat, List.mem_range.2 hn, fun i hi => by simp [hbefore i hi]⟩

theorem firstFault_eq_none {s : State} {a : Access}
    (h : ∀ i, i < a.span → conditionBits s.cfg a.cls (s.byteXlate a i) = 0) : s.firstFault a = none := by
  rw [State.firstFault, List.find?_range_eq_none]
  exact fun i hi => by simp [h i hi]

theorem otherConditions_eq {s : State} {a : Access} {n : Nat} (h : s.firstFault a = some n) :
    s.otherConditions a =
      conditionBits s.cfg a.cls (s.byteXlate a n) ||| (if s.disables a then dsiExternal else 0) := by
  rw [State.otherConditions, h]

theorem otherConditions_translated {s : State} {a : Access} (h : s.firstFault a = none) :
    s.otherConditions a = if s.disables a then dsiExternal else 0 := by
  rw [State.otherConditions, h]
  exact BitVec.zero_or

/-- Only a cache instruction is translated at one byte (notes/assumptions/30.md). -/
theorem span_eq (a : Access) : a.span = if a.cls = .cache ∨ a.cls = .dcbz then 1 else a.len := by
  unfold Access.span
  cases a.cls <;> rfl

theorem unsupported_eq (cls : AccessClass) (attrs : Attrs) : unsupported cls attrs =
    (decide (cls = .reserve) && (attrs.writeThrough || attrs.directStore) ||
      decide (cls = .external) && attrs.directStore) := by
  cases cls <;> simp [unsupported]

theorem permittedBits_pair {s : State} {bits : BitVec 32} (h : bits ≠ 0x0C100000) : s.permittedBits bits = bits :=
  if_neg h

/-- The conditions protection, refusal and `EAR[E]` = 0 are reported as one of two pairs (61 R302). -/
theorem permittedBits_triple (s : State) :
    s.permittedBits 0x0C100000 = 0x08100000 ∨ s.permittedBits 0x0C100000 = 0x04100000 := by
  have h : s.permittedBits 0x0C100000 =
      (if s.freeBit .dsiPair 0 then dsiProtection else dsiUnsupported) ||| dsiExternal := if_pos rfl
  rw [h]
  cases s.freeBit .dsiPair 0
  · exact .inr rfl
  · exact .inl rfl

/-- Bit 11 of a translation's conditions is clear: it tells of `EAR[E]` alone. -/
theorem conditionBits_and_external (c : Config) (cls : AccessClass) (r : XlateResult) :
    conditionBits c cls r &&& dsiExternal = 0 := by
  unfold conditionBits
  cases r with
  | noTranslation => exact (by decide : dsiNoTranslation &&& dsiExternal = 0)
  | ok pa attrs | segmentFail | protection attrs | directStoreError pa => dsimp only; split_ifs <;> rfl

/-- The DAR without a breakpoint: the byte at fault, or the effective address where `EAR[E]` disables the access. -/
theorem faultDar_located {s : State} {a : Access} {bits : BitVec 32} (h : bits &&& dsiExternal = 0) (n : Nat) :
    s.faultDar a (bits ||| (if s.disables a then dsiExternal else 0)) false n =
      if s.disables a then a.ea else s.byteEa a n := by
  unfold State.faultDar
  rw [BitVec.and_or_distrib_right, h]
  cases s.disables a <;> rfl

/-- The DSI of an access without a DABR whose first byte at fault is known. -/
theorem dataFault_located {s : State} {a : Access} {n : Nat} (hd : s.cfg.hasDabr = false)
    (hn : s.firstFault a = some n) :
    ∃ f, s.dataFault a = some f ∧
      f.dsisr = s.permittedBits (conditionBits s.cfg a.cls (s.byteXlate a n) |||
        (if s.disables a then dsiExternal else 0)) ||| a.storeBit ∧
      f.dar = if s.disables a then a.ea else s.byteEa a n := by
  have hne : s.otherConditions a ≠ 0 := by
    have hfound : conditionBits s.cfg a.cls (s.byteXlate a n) ≠ 0 := by
      rw [State.firstFault, List.find?_range_eq_some] at hn
      simpa using hn.1
    rw [otherConditions_eq hn]
    exact fun h => hfound (BitVec.or_eq_zero_iff.1 h).1
  obtain ⟨f, hf, hdsisr, hdar⟩ := faultWith_faulting hne
  refine ⟨f, ?_, ?_, ?_⟩
  · rw [dataFault_eq_faultWith, dabrMatch_absent hd, hf]
  · rw [hdsisr, otherConditions_eq hn]
  · rw [hdar, hn, otherConditions_eq hn]
    exact faultDar_located (conditionBits_and_external _ _ _) n

/-- The DSI of an access without a DABR that meets no condition: that of `EAR[E]` alone, or none. -/
theorem dataFault_unlocated {s : State} {a : Access} (hd : s.cfg.hasDabr = false) (hn : s.firstFault a = none) :
    if s.disables a then ∃ f, s.dataFault a = some f ∧ f.dsisr = dsiExternal ||| a.storeBit ∧ f.dar = a.ea
    else s.dataFault a = none := by
  have hother := otherConditions_translated hn
  rw [dataFault_eq_faultWith, dabrMatch_absent hd]
  cases hdis : s.disables a with
  | false =>
    rw [hdis] at hother
    exact faultWith_clear hother
  | true =>
    rw [hdis, if_pos rfl] at hother
    obtain ⟨f, hf, hdsisr, hdar⟩ := faultWith_faulting (s := s) (a := a) (by rw [hother]; decide)
    refine ⟨f, hf, ?_, ?_⟩
    · rw [hdsisr, hother, permittedBits_pair (by decide)]
    · rw [hdar, hother]
      rfl

/-! ## The data address breakpoint (61 R304) -/

/-- The double-word number of the DABR is the DABR without its control bits. -/
theorem dabrDAB_append (d : Word) {k : Nat} (hk : 3 ≤ k) :
    (dabrDAB d ++ (0 : BitVec 3) : BitVec 64) >>> k = d >>> k := by
  ext i hi
  have hnot : ¬ k + i < 3 := by omega
  have hsum : 3 + (k + i - 3) = k + i := by omega
  simp only [BitVec.getElem_ushiftRight, BitVec.getLsbD_append, if_neg hnot, dabrDAB, BitVec.getLsbD_extractLsb', hsum]
  by_cases h : k + i - 3 < 61
  · simp [h]
  · simp [h, BitVec.getLsbD_of_ge d (k + i) (by omega)]

/-- Two addresses lie in one double word where they agree above the three low-order bits. -/
theorem extractLsb'_doubleWord (x y : Word) : x.extractLsb' 3 61 = y.extractLsb' 3 61 ↔ x >>> 3 = y >>> 3 := by
  have hlt (v : Word) : v.toNat >>> 3 < 2 ^ 61 := by
    rw [Nat.shiftRight_eq_div_pow]
    have := v.isLt
    omega
  simp only [← BitVec.toNat_inj, BitVec.extractLsb'_toNat, BitVec.toNat_ushiftRight, Nat.mod_eq_of_lt (hlt _)]

theorem dabrCovers_dcbz {s : State} {a : Access} (h : a.cls = .dcbz) :
    s.dabrCovers a = true ↔ a.ea >>> max s.cfg.blockLog 3 = s.dabr >>> max s.cfg.blockLog 3 := by
  simp only [State.dabrCovers, h, beq_iff_eq]
  rw [dabrDAB_append _ (Nat.le_max_right _ _)]

theorem dabrCovers_cache {s : State} {a : Access} (h : a.cls = .cache) : s.dabrCovers a = false := by
  simp only [State.dabrCovers, h]

theorem dabrCovers_bytes {s : State} {a : Access} (hcache : a.cls ≠ .cache) (hdcbz : a.cls ≠ .dcbz) :
    s.dabrCovers a = true ↔ ∃ i, i < a.len ∧ s.byteEa a i >>> 3 = s.dabr >>> 3 := by
  have hany : s.dabrCovers a =
      (List.range a.len).any fun i => (s.byteEa a i).extractLsb' 3 61 == dabrDAB s.dabr := by
    unfold State.dabrCovers
    split
    · exact absurd (by assumption) hcache
    · exact absurd (by assumption) hdcbz
    · rfl
  simp only [hany, List.any_eq_true, List.mem_range, beq_iff_eq, dabrDAB, extractLsb'_doubleWord]

theorem dabrUndefined_iff {s : State} {a : Access} : s.dabrUndefined a = true ↔
    a.cls = .dcbz ∨ a.cls = .external ∨ (a.cls = .reserve ∧ a.store = true ∧ s.reservation = none) := by
  unfold State.dabrUndefined
  cases a.cls <;> simp

theorem doubleWord_iff {a : Access} :
    a.doubleWord = true ↔ a.len = 8 ∧ (a.cls = .int ∨ a.cls = .fp ∨ a.cls = .reserve) := by
  unfold Access.doubleWord
  cases a.cls <;> simp

/-- The state on an implementation without a DABR. -/
def State.withoutDabr (s : State) : State := { s with cfg := { s.cfg with hasDabr := false } }

/-- Without a DABR an access meets the conditions it meets beside a match. -/
theorem dataFault_withoutDabr (s : State) (a : Access) : s.withoutDabr.dataFault a = s.faultWith a false := by
  rw [dataFault_eq_faultWith, dabrMatch_absent (s := s.withoutDabr) rfl]
  rfl

/-- The DSISR of an access without a breakpoint, or the bit of a store where there is no DSI. -/
theorem dsisr_faultWith (s : State) (a : Access) :
    ((s.faultWith a false).map DataFault.dsisr).getD a.storeBit =
      s.permittedBits (s.otherConditions a) ||| a.storeBit := by
  by_cases h : s.otherConditions a = 0
  · rw [faultWith_clear h, h, permittedBits_pair (by decide)]
    exact BitVec.zero_or.symm
  · obtain ⟨f, hf, hdsisr, -⟩ := faultWith_faulting h
    rw [hf]
    exact hdsisr

/-- With data translation off an access meets no condition but that of `EAR[E]`. -/
theorem otherConditions_untranslated {s : State} {a : Access} (hdr : msrDR s.context = false)
    (he : s.disables a = false) : s.otherConditions a = 0 := by
  have hnone : s.firstFault a = none := firstFault_eq_none fun i _ => by
    rw [byteXlate_untranslated hdr, conditionBits_plain]
  rw [otherConditions_translated hnone, he]
  rfl

end Sys2Proof.Machine

open Sys2Proof Sys2Proof.Machine

/-- Settles O44: the first byte at fault gives the bits, one answer of the translation at a time. -/
theorem translationFaultBits : Obligations.TranslationFaultBits := by
  intro s a hd bytes store disabled external refuses permits reports
  have hspan : a.span = bytes := span_eq a
  have hrefuses (attrs : Attrs) : unsupported a.cls attrs = refuses attrs := unsupported_eq _ _
  have hpermits {r : XlateResult} (h : permits r) : conditionBits s.cfg a.cls r = 0 := by
    obtain ⟨pa, attrs, rfl, hno⟩ := h
    simp [conditionBits, hrefuses, hno]
  refine ⟨fun n hn hbefore => ?_, fun hall => ?_⟩
  · have hfound {bits : BitVec 32} (hbits : conditionBits s.cfg a.cls (s.byteXlate a n) = bits) (hne : bits ≠ 0) :
        ∃ f, s.dataFault a = some f ∧ f.dsisr = s.permittedBits (bits ||| external) ||| store ∧
          f.dar = if disabled then a.ea else s.byteEa a n := by
      rw [← hbits]
      exact dataFault_located hd (firstFault_eq_some (hspan ▸ hn) (fun i hi => hpermits (hbefore i hi)) (hbits ▸ hne))
    have hreports {bits : BitVec 32} (hbits : conditionBits s.cfg a.cls (s.byteXlate a n) = bits) (hne : bits ≠ 0)
        (hpair : bits ||| external ≠ 0x0C100000) : reports n bits := by
      obtain ⟨f, hf, hdsisr, hdar⟩ := hfound hbits hne
      exact ⟨f, hf, by rw [hdsisr, permittedBits_pair hpair], hdar⟩
    have hexternal : external = 0x00100000 ∨ external = 0 := ite_eq_or_eq _ _ _
    cases hx : s.byteXlate a n with
    | noTranslation =>
      exact hreports (by rw [hx]; rfl) (by decide) (by rcases hexternal with h | h <;> rw [h] <;> decide)
    | segmentFail =>
      refine hreports (bits := if s.cfg.is64 then 0x00200000 else 0x40000000) (by rw [hx]; rfl) ?_ ?_
      · split <;> decide
      · rcases hexternal with h | h <;> rw [h] <;> split <;> decide
    | directStoreError pa =>
      refine hreports (bits := if a.cls = .reserve ∨ a.cls = .external then 0x04000000 else 0x80000000) ?_ ?_ ?_
      · rw [hx]
        simp [conditionBits, dsiUnsupported, dsiDirectStore]
      · split <;> decide
      · rcases hexternal with h | h <;> rw [h] <;> split <;> decide
    | ok pa attrs =>
      intro hno
      refine hreports ?_ (by decide) (by rcases hexternal with h | h <;> rw [h] <;> decide)
      rw [hx]
      simp [conditionBits, hrefuses, hno, dsiUnsupported]
    | protection attrs =>
      dsimp only
      cases hno : refuses attrs with
      | false =>
        refine hreports ?_ (by decide) (by rcases hexternal with h | h <;> rw [h] <;> decide)
        rw [hx]
        simp [conditionBits, hrefuses, hno, dsiProtection]
      | true =>
        have hbits : conditionBits s.cfg a.cls (s.byteXlate a n) = 0x0C000000 := by
          rw [hx]
          simp [conditionBits, hrefuses, hno, dsiProtection, dsiUnsupported]
        cases hdis : disabled with
        | false =>
          have hnone : external = 0 := by simp [external, hdis]
          exact hreports hbits (by decide) (by rw [hnone]; decide)
        | true =>
          have hset : external = 0x00100000 := by simp [external, hdis]
          obtain ⟨f, hf, hdsisr, hdar⟩ := hfound hbits (by decide)
          refine ⟨f, hf, by rw [hdar, hdis]; rfl, ?_⟩
          rw [hdsisr, hset]
          obtain h | h := permittedBits_triple s
          · exact List.mem_cons.2 (.inl (congrArg (· ||| store) h))
          · exact List.mem_cons_of_mem _ (List.mem_singleton.2 (congrArg (· ||| store) h))
  · have hnone := firstFault_eq_none fun i hi => hpermits (hall i (hspan ▸ hi))
    have hfault := dataFault_unlocated hd hnone
    have hdisables : s.disables a = disabled := rfl
    rw [hdisables] at hfault
    cases hdis : disabled with
    | false =>
      rw [hdis] at hfault
      exact hfault
    | true =>
      rw [hdis] at hfault
      obtain ⟨f, hf, hdsisr, hdar⟩ := hfault
      have hset : external = 0x00100000 := by simp [external, hdis]
      exact ⟨f, hf, by rw [hdsisr, hset]; exact congrArg (· ||| store) BitVec.zero_or.symm, by rw [hdar, hdis]; rfl⟩

/-- Settles O45: the DSI with a match and without one differ in the bit of the match and the DAR. -/
theorem breakpointMatch : Obligations.BreakpointMatch := by
  intro s a hd bare enabled covers matched open15 double hit
  have hbare : bare.dataFault a = s.faultWith a false := dataFault_withoutDabr s a
  have hcovers : s.dabrCovers a = true ↔ covers := by
    dsimp only [covers]
    split
    next h => simp [dabrCovers_cache h]
    next h => exact dabrCovers_dcbz h
    next hcache hdcbz => exact dabrCovers_bytes hcache hdcbz
  have hmatched : s.dabrConditions a = true ↔ matched := by
    simp only [State.dabrConditions, hd, Bool.true_and, Bool.and_eq_true, beq_iff_eq, hcovers, matched]
    exact ⟨fun ⟨⟨hbt, hen⟩, hc⟩ => ⟨hc, hbt, hen⟩, fun ⟨hc, hbt, hen⟩ => ⟨⟨hbt, hen⟩, hc⟩⟩
  have hmiss (h : s.dabrMatch a = false) : s.dataFault a = bare.dataFault a := by
    rw [hbare, dataFault_eq_faultWith, h]
  have hhit (h : s.dabrMatch a = true) : hit := by
    obtain ⟨f, hf, hdsisr, hdar⟩ := faultWith_breakpoint s a
    refine ⟨f, by rw [dataFault_eq_faultWith, h, hf], ?_, ?_⟩
    · have hstore : (if a.store then 0x02000000 else 0 : BitVec 32) = a.storeBit := rfl
      rw [hbare, hstore, dsisr_faultWith, hdsisr, BitVec.or_assoc, BitVec.or_comm dsiBreakpoint, ← BitVec.or_assoc]
      rfl
    · rw [hdar]
      exact if_congr doubleWord_iff rfl rfl
  refine ⟨fun hno => hmiss ?_, fun hyes hdefined => hhit ?_, fun _ _ => ?_, fun hdr he => ?_⟩
  · rw [State.dabrMatch, Bool.eq_false_of_not_eq_true (mt hmatched.1 hno), Bool.false_and]
  · rw [State.dabrMatch, hmatched.2 hyes, Bool.eq_false_of_not_eq_true (mt dabrUndefined_iff.1 hdefined)]
    rfl
  · cases h : s.dabrMatch a
    · exact .inr (hmiss h)
    · exact .inl (hhit h)
  · rw [hbare, faultWith_clear (otherConditions_untranslated hdr ?_)]
    simpa [State.disables] using he

end

section
/-! Proofs about the alignment of an access (61_each_exception.md R311, R312): which items raise the exception under the
default policy, and what a naturally aligned access meets. -/

namespace Sys2Proof.Machine

/-! ## The outcome (61 R312) -/

/-- Under the default policy an access that meets an item raises the exception, and any other is performed (92 D8). -/
theorem alignChoice_default {s : State} (h : s.cfg.alignRules = []) (a : Access) : s.alignChoice a =
    if s.alignForced a || a.alignRequired || s.alignItem a then .exception else .correct := by
  have hpolicy : alignPolicy s.cfg.alignRules (encode a.instr) a.ea s.context = none := by rw [h]; rfl
  simp only [State.alignChoice, hpolicy]
  cases s.alignForced a <;> cases a.alignRequired <;> cases s.alignItem a <;> simp

/-- An access that meets no item and is not misaligned is performed under every policy. -/
theorem alignChoice_of_no_item {s : State} {a : Access} (hforced : s.alignForced a = false)
    (hrequired : a.alignRequired = false) (hitem : s.alignItem a = false) (hmis : a.misaligned = false) :
    s.alignChoice a = .correct := by
  simp [State.alignChoice, hforced, hrequired, hitem, hmis]

/-! ## Boundaries an operand crosses (00 R17) -/

theorem alignedTo_iff {a : Access} {n : Nat} : a.alignedTo n = true ↔ a.ea.toNat % n = 0 := by
  simp [Access.alignedTo]

theorem anyDirect_of_byte {s : State} {a : Access} {i : Nat} {pa : Word} {attrs : Attrs} (hi : i < a.span)
    (hx : s.byteXlate a i = .ok pa attrs) (hd : attrs.directStore = true) : s.anyDirect a = true := by
  simp only [State.anyDirect, List.any_eq_true, List.mem_range]
  exact ⟨i, hi, by rw [State.byteDirect, hx]; exact hd⟩

theorem crossesSegment_of_byte {s : State} {a : Access} {j : Nat} (hj : j < a.span)
    (h : s.byteSegment a j ≠ s.byteSegment a 0) : s.crossesSegment a = true := by
  simp only [State.crossesSegment, List.any_eq_true, List.mem_range]
  exact ⟨j, hj, by simpa using h⟩

theorem crossesDomain_of_byte {s : State} {a : Access} {i : Nat} (hdr : msrDR s.context = true) (hi : i < a.span)
    (h : s.byteDomain a i ≠ s.byteDomain a 0) : s.crossesDomain a = true := by
  simp only [State.crossesDomain, hdr, Bool.true_and, List.any_eq_true, List.mem_range]
  exact ⟨i, hi, by simpa using h⟩

theorem crossesSegmentOrBat_of_byte {s : State} {a : Access} {i : Nat} (hdr : msrDR s.context = true)
    (hi : i < a.span) (h : s.byteSegment a i ≠ s.byteSegment a 0 ∨
      (xlateAttrs (s.byteXlate a i)).bat ≠ (xlateAttrs (s.byteXlate a 0)).bat) : s.crossesSegmentOrBat a = true := by
  simp only [State.crossesSegmentOrBat, hdr, Bool.true_and, List.any_eq_true, List.mem_range]
  exact ⟨i, hi, by simpa using h⟩

/-- A byte that translates to a direct-store segment has that segment as its domain (00 R17). -/
theorem byteDomain_segment {s : State} {a : Access} {i : Nat} {pa : Word} {attrs : Attrs}
    (hx : s.byteXlate a i = .ok pa attrs) (hd : attrs.directStore = true) :
    s.byteDomain a i = .segment (s.byteSegment a i) := by
  simp [State.byteDomain, State.byteDirect, hx, xlateAttrs, hd]

/-- One that translates by a BAT entry has the block. -/
theorem byteDomain_block {s : State} {a : Access} {i n : Nat} {pa : Word} {attrs : Attrs}
    (hx : s.byteXlate a i = .ok pa attrs) (hd : attrs.directStore = false) (hb : attrs.bat = some n) :
    s.byteDomain a i = .block n := by
  simp [State.byteDomain, State.byteDirect, hx, xlateAttrs, hd, hb]

/-- Any other that translates has its page. -/
theorem byteDomain_page {s : State} {a : Access} {i : Nat} {pa : Word} {attrs : Attrs}
    (hx : s.byteXlate a i = .ok pa attrs) (hd : attrs.directStore = false) (hb : attrs.bat = none) :
    s.byteDomain a i = .page ((s.byteEa a i).toNat / 2 ^ 12) := by
  simp [State.byteDomain, State.byteDirect, hx, xlateAttrs, hd, hb]

/-- The domain is a direct-store segment. -/
def Domain.isSegment : Domain → Bool
  | .segment _ => true
  | _ => false

theorem isSegment_byteDomain {s : State} {a : Access} {i : Nat} {pa : Word} {attrs : Attrs}
    (hx : s.byteXlate a i = .ok pa attrs) : (s.byteDomain a i).isSegment = attrs.directStore := by
  cases hd : attrs.directStore with
  | true => rw [byteDomain_segment hx hd]; rfl
  | false =>
    cases hb : attrs.bat with
    | some n => rw [byteDomain_block hx hd hb]; rfl
    | none => rw [byteDomain_page hx hd hb]; rfl

/-- The number of the BAT block that is the domain, if it is one. -/
def Domain.bat : Domain → Option Nat
  | .block n => some n
  | _ => none

theorem bat_byteDomain {s : State} {a : Access} {i : Nat} {pa : Word} {attrs : Attrs}
    (hx : s.byteXlate a i = .ok pa attrs) (hd : attrs.directStore = false) :
    (s.byteDomain a i).bat = attrs.bat := by
  cases hb : attrs.bat with
  | some n => rw [byteDomain_block hx hd hb]; rfl
  | none => rw [byteDomain_page hx hd hb]; rfl

/-- Bytes in different pages, BAT blocks, or kinds of segment lie in different protection domains. -/
theorem byteDomain_ne {s : State} {a : Access} {i j : Nat} {p q : Word} {x y : Attrs}
    (hx : s.byteXlate a i = .ok p x) (hy : s.byteXlate a j = .ok q y)
    (h : (x.directStore = false ∧ y.directStore = false ∧ x.bat = none ∧ y.bat = none ∧
        (s.byteEa a j).toNat / 2 ^ 12 ≠ (s.byteEa a i).toNat / 2 ^ 12) ∨
      (x.directStore = false ∧ y.directStore = false ∧ x.bat ≠ y.bat) ∨ x.directStore ≠ y.directStore) :
    s.byteDomain a j ≠ s.byteDomain a i := by
  intro heq
  obtain ⟨hdx, hdy, hbx, hby, hpage⟩ | ⟨hdx, hdy, hbat⟩ | hdirect := h
  · rw [byteDomain_page hx hdx hbx, byteDomain_page hy hdy hby] at heq
    exact hpage (Domain.page.inj heq)
  · rw [← bat_byteDomain hx hdx, ← bat_byteDomain hy hdy, heq] at hbat
    exact hbat rfl
  · rw [← isSegment_byteDomain hx, ← isSegment_byteDomain hy, heq] at hdirect
    exact hdirect rfl

/-! ## With data translation off -/

theorem crossesDomain_untranslated {s : State} (h : msrDR s.context = false) (a : Access) :
    s.crossesDomain a = false := by
  simp [State.crossesDomain, h]

/-- With data translation off there is no direct-store segment. -/
theorem anyDirect_untranslated {s : State} (h : msrDR s.context = false) (a : Access) : s.anyDirect a = false := by
  simp [State.anyDirect, State.byteDirect, byteXlate_untranslated h, xlateAttrs]

/-- With data translation off no item without an alternative holds of an elementary access, nor, in big-endian mode, of
a multiple or string. -/
theorem alignForced_untranslated {s : State} {a : Access} (hdr : msrDR s.context = false)
    (hle : a.cls = .multiple ∨ a.cls = .string → msrLE s.context = false) : s.alignForced a = false := by
  unfold State.alignForced
  rw [anyDirect_untranslated hdr]
  cases hcls : a.cls <;> simp_all

/-- With data translation off, in big-endian mode, an elementary access meets an item only off a word boundary. -/
theorem alignItem_elementary {s : State} {a : Access} (hdr : msrDR s.context = false)
    (hcls : a.cls = .int ∨ a.cls = .fp) (hword : a.cls = .fp ∨ a.len = 8 → a.ea.toNat % 4 = 0)
    (hle : msrLE s.context = true → a.ea.toNat % a.len = 0) : s.alignItem a = false := by
  have horder : (msrLE s.context && !a.alignedTo a.len) = false := by
    cases h : msrLE s.context
    · rfl
    · rw [alignedTo_iff.2 (hle h)]; rfl
  unfold State.alignItem
  rw [crossesDomain_untranslated hdr, horder, anyDirect_untranslated hdr]
  rcases hcls with h | h
  · simpa [h, Access.alignedTo] using fun h8 => hword (.inr h8)
  · simpa [h, Access.alignedTo] using hword (.inl h)

theorem crossesSegmentOrBat_untranslated {s : State} (h : msrDR s.context = false) (a : Access) :
    s.crossesSegmentOrBat a = false := by
  simp [State.crossesSegmentOrBat, h]

/-! ## Naturally aligned accesses (20 R73) -/

/-- An integer access of 1, 2, 4 or 8 bytes, a floating-point or reservation access of 4 or 8, or a multiple or string
in big-endian mode. -/
def State.ordinary (s : State) (a : Access) : Prop :=
  (a.cls = .int ∧ a.len ∈ [1, 2, 4, 8]) ∨ ((a.cls = .fp ∨ a.cls = .reserve) ∧ a.len ∈ [4, 8]) ∨
    ((a.cls = .multiple ∨ a.cls = .string) ∧ msrLE s.context = false)

/-- A naturally aligned operand of 4 or 8 bytes is word-aligned. -/
theorem wordAligned_of_len {v n : Nat} (hn : n ∈ [4, 8]) (h : v % n = 0) : v % 4 = 0 := by
  simp only [List.mem_cons, List.not_mem_nil, or_false] at hn
  rcases hn with rfl | rfl <;> omega

/-- A naturally aligned ordinary access with data translation off is performed under every policy. -/
theorem alignChoice_ordinary {s : State} {a : Access} (h : s.ordinary a) (hnat : a.naturallyAligned = true)
    (hdr : msrDR s.context = false) : s.alignChoice a = .correct := by
  have hforced : s.alignForced a = false := alignForced_untranslated hdr fun hm => by
    obtain ⟨hc, -⟩ | ⟨hc | hc, -⟩ | ⟨-, hle⟩ := h
    all_goals first | exact hle | simp [hc] at hm
  obtain ⟨hc, hlen⟩ | ⟨hc | hc, hlen⟩ | ⟨hc | hc, hle⟩ := h <;>
    simp only [Access.naturallyAligned, hc] at hnat
  · refine alignChoice_of_no_item hforced (by simp [Access.alignRequired, hc])
      (alignItem_elementary hdr (.inl hc) (fun h8 => ?_) fun _ => alignedTo_iff.1 hnat)
      (by simp [Access.misaligned, hc, hnat])
    have h8 : a.len = 8 := h8.resolve_left (by simp [hc])
    exact wordAligned_of_len (by simp [h8]) (alignedTo_iff.1 hnat)
  · exact alignChoice_of_no_item hforced (by simp [Access.alignRequired, hc])
      (alignItem_elementary hdr (.inr hc) (fun _ => wordAligned_of_len hlen (alignedTo_iff.1 hnat)) fun _ =>
        alignedTo_iff.1 hnat) (by simp [Access.misaligned, hc, hnat])
  · exact alignChoice_of_no_item hforced (by simp [Access.alignRequired, hc, hnat]) (by simp [State.alignItem, hc])
      (by simp [Access.misaligned, hc])
  · exact alignChoice_of_no_item hforced (by simp [Access.alignRequired, hc, hnat])
      (by simpa [State.alignItem, hc] using crossesSegmentOrBat_untranslated hdr a) (by simp [Access.misaligned, hc])
  · exact alignChoice_of_no_item hforced (by simp [Access.alignRequired, hc])
      (by simpa [State.alignItem, hc] using crossesDomain_untranslated hdr a) (by simp [Access.misaligned, hc])

/-- An access other than `dcbz` touches bytes of its operand alone. -/
theorem mem_touched {s : State} {a : Access} {pa : Word} (hc : a.cls ≠ .dcbz) (h : pa ∈ s.touched a) :
    ∃ i, i < a.len ∧ s.bytePa a i = pa := by
  have hoperand : pa ∈ (List.range a.len).map (s.bytePa a) := by
    unfold State.touched at h
    split at h
    · cases h
    · cases h
    · exact absurd (by assumption) hc
    · split at h
      · cases h
      · exact h
    · exact h
  simpa using hoperand

theorem firstAbsent_eq_none {s : State} {a : Access} (hc : a.cls ≠ .dcbz)
    (h : ∀ i, i < a.len → memoryAt s.cfg (s.bytePa a i) = true) : s.firstAbsent a = none := by
  rw [State.firstAbsent, List.findIdx?_eq_none_iff]
  intro pa hpa
  obtain ⟨i, hi, rfl⟩ := mem_touched hc hpa
  rw [h i hi]
  rfl

end Sys2Proof.Machine

open Sys2Proof Sys2Proof.Machine

/-- Settles O50: each item makes one of the three tests of the outcome true, and with translation off none holds. -/
theorem alignmentItems : Obligations.AlignmentItems := by
  intro s a hrules aligned raises segment page direct elementary
  have hraises (h : s.alignForced a = true ∨ a.alignRequired = true ∨ s.alignItem a = true) : raises := by
    rw [← or_assoc, ← Bool.or_eq_true, ← Bool.or_eq_true] at h
    exact (alignChoice_default hrules a).trans (if_pos h)
  have hspan (h : a.cls ≠ .cache ∧ a.cls ≠ .dcbz) : a.span = a.len := by
    rw [span_eq, if_neg (not_or.2 h)]
  have hoff {n : Nat} (h : ¬aligned n) : a.alignedTo n = false :=
    Bool.eq_false_of_not_eq_true (mt alignedTo_iff.1 h)
  refine ⟨fun hc h => ?_, fun hc hl h => ?_, fun hc h => ?_, fun hc h => ?_, fun hc i hi => ?_,
    fun hc hdr i p q x y hi hx hy h => ?_, fun hc hdr i hi h => ?_, fun hc p x hx h => ?_,
    fun hc i j hi hj => ?_, fun hc hle h => ?_, fun hle hdr h => ?_⟩
  · exact hraises (.inr (.inr (by simp [State.alignItem, hc, hoff h])))
  · exact hraises (.inr (.inr (by simp [State.alignItem, hc, hl, hoff h])))
  · exact hraises (.inr (.inl (by rcases hc with hc | hc <;> simp [Access.alignRequired, hc, hoff h])))
  · exact hraises (.inr (.inl (by simp [Access.alignRequired, hc, hoff h])))
  · rintro ⟨pa, attrs, hx, hd⟩
    have hany := anyDirect_of_byte (hspan (by simp [hc]) ▸ hi) hx hd
    exact hraises (.inr (.inr (by simp [State.alignItem, hc, hany])))
  · have hcross : s.crossesDomain a = true := by
      refine crossesDomain_of_byte hdr (hspan ?_ ▸ hi) (byteDomain_ne hx hy h)
      rcases hc with (hc | hc) | hc <;> simp [hc]
    exact hraises (.inr (.inr (by rcases hc with (hc | hc) | hc <;> simp [State.alignItem, hc, hcross])))
  · have hcross : s.crossesSegmentOrBat a = true := by
      refine crossesSegmentOrBat_of_byte hdr (hspan (by simp [hc]) ▸ hi) (h.imp_right ?_)
      rintro ⟨p, q, x, y, hx, hy, hbat⟩
      rw [hx, hy]
      exact hbat.symm
    exact hraises (.inr (.inr (by simp [State.alignItem, hc, hcross])))
  · refine hraises (.inr (.inr ?_))
    simpa [State.alignItem, hc, hx, xlateAttrs, or_assoc] using h
  · rintro ⟨pa, attrs, hx, hd⟩ hseg
    have hlen : a.span = a.len := hspan (by rcases hc with (hc | hc) | hc | hc | hc <;> simp [hc])
    have hany := anyDirect_of_byte (hlen ▸ hi) hx hd
    have hcross := crossesSegment_of_byte (hlen ▸ hj) hseg
    exact hraises (.inl (by rcases hc with (hc | hc) | hc | hc | hc <;> simp [State.alignForced, hc, hany, hcross]))
  · exact hraises (.inr (.inr (by rcases hc with hc | hc <;> simp [State.alignItem, hc, hle, hoff h])))
  · have hforced := alignForced_untranslated (a := a) hdr fun _ => hle
    have hnone : a.alignRequired = false ∧ s.alignItem a = false := by
      obtain hc | ⟨hc, hword⟩ := h
      · exact ⟨by simp [Access.alignRequired, hc],
          by simpa [State.alignItem, hc] using crossesDomain_untranslated hdr a⟩
      · exact ⟨by rcases hc with hc | hc <;> simp [Access.alignRequired, hc],
          alignItem_elementary hdr hc hword (by simp [hle])⟩
    rw [alignChoice_default hrules, hforced, hnone.1, hnone.2]
    rfl

/-- Settles O51: no item, no DSI condition, and memory at every byte. -/
theorem alignedAccessIsClear : Obligations.AlignedAccessIsClear := by
  intro s a hcls hnat hdr hd hmem
  have hordinary : a.cls ≠ .external ∧ a.cls ≠ .dcbz := by
    obtain ⟨hc, -⟩ | ⟨hc | hc, -⟩ | ⟨hc | hc, -⟩ := hcls <;> simp [hc]
  have hfault : s.dataFault a = none := by
    rw [dataFault_eq_faultWith, dabrMatch_absent hd]
    exact faultWith_clear (otherConditions_untranslated hdr (by simp [State.disables, hordinary.1]))
  simp [clear, alignChoice_ordinary hcls hnat hdr, hfault, firstAbsent_eq_none hordinary.2 hmem]

end

section
/-! Proofs about the step (61_each_exception.md R297, R305 to R307, R329, R335 to R337, R347): a fetch that fails,
tracing, checkstop, the decrementer's count, and reduced power mode. -/

namespace Sys2Proof.Machine

/-! ## The decrementer's count (61 R329) -/

theorem toNat_count (d : BitVec 32) : (d - 1).toNat = (d.toNat + 2 ^ 32 - 1) % 2 ^ 32 := by
  have hsub : (d - 1).toNat = (2 ^ 32 - 1 + d.toNat) % 2 ^ 32 := by simp [BitVec.toNat_sub]
  rw [hsub]
  omega

/-- The count that sets bit 0 is the one from zero (61 R326). -/
theorem count_sets_msb (d : BitVec 32) : (!d.getMsbD 0 && (d - 1).getMsbD 0) = (d == 0) := by
  have hd := d.isLt
  have hzero : (d == 0) = decide (d.toNat = 0) := by
    rw [Bool.eq_iff_iff, beq_iff_eq, decide_eq_true_iff, ← BitVec.toNat_inj]
    simp
  rw [← BitVec.msb_eq_getMsbD_zero, ← BitVec.msb_eq_getMsbD_zero, BitVec.msb_eq_decide, BitVec.msb_eq_decide,
    toNat_count, hzero, Bool.eq_iff_iff]
  simp only [Bool.and_eq_true, Bool.not_eq_true', decide_eq_false_iff_not, decide_eq_true_iff]
  omega

/-- When `TICK` steps have passed the decrementer counts. -/
theorem advance_counts {s : State} (hs : s.checkstop = false) (h : s.cfg.tick ≤ s.tickCount + 1) :
    advance s = { s with
      dec := s.dec - 1, decPending := s.decPending || s.dec == 0, tickCount := 0, draws := s.draws + 1 } := by
  rw [advance, if_neg (by simp [hs]), countDown, if_neg (by omega), State.setDec, count_sets_msb]

/-- Until then it does not. -/
theorem advance_waits {s : State} (hs : s.checkstop = false) (h : ¬s.cfg.tick ≤ s.tickCount + 1) :
    advance s = { s with tickCount := s.tickCount + 1, draws := s.draws + 1 } := by
  rw [advance, if_neg (by simp [hs]), countDown, if_pos (by omega)]

theorem advance_draws {s : State} (hs : s.checkstop = false) : (advance s).draws = s.draws + 1 := by
  rw [advance, if_neg (by simp [hs])]

/-! ## Steps that execute nothing -/

/-- In checkstop the environment's moves are the step. -/
theorem step_of_checkstop {s : State} (h : (beginStep s).checkstop = true) : step s = .next (beginStep s) := by
  simp only [step, h, if_true]

/-- In reduced power mode time alone goes on. -/
theorem step_of_asleep {s : State} (hc : (beginStep s).checkstop = false)
    (hb : boundaryException (beginStep s) = none) (ha : asleep (beginStep s) = true) :
    step s = .next (advance (beginStep s)) := by
  simp only [step, hc, hb, ha, Bool.false_eq_true, if_false, if_true]

/-! ## Tracing (61 R335 to R337) -/

theorem traceable_eq_false {i : Instr} : i.traceable = false ↔ i = .rfi ∨ i = .rfid := by
  cases i with
  | rfi => exact ⟨fun _ => .inl rfl, fun _ => rfl⟩
  | rfid => exact ⟨fun _ => .inr rfl, fun _ => rfl⟩
  | _ => exact ⟨fun h => (nomatch h), fun h => by rcases h with h | h <;> cases h⟩

theorem movesToMsr_iff {i : Instr} : i.movesToMsr = true ↔ ∃ r, i = .mtmsr r ∨ i = .mtmsrd r := by
  cases i with
  | mtmsr r => exact ⟨fun _ => ⟨r, .inl rfl⟩, fun _ => rfl⟩
  | mtmsrd r => exact ⟨fun _ => ⟨r, .inr rfl⟩, fun _ => rfl⟩
  | _ => exact ⟨fun h => (nomatch h), fun ⟨_, h⟩ => by rcases h with h | h <;> cases h⟩

/-- The instruction is traced: `SE` was in force, it completed, and it is neither `rfi` nor `rfid`. -/
def Traced (i : Instr) (se : Bool) (t : State) : Prop :=
  t.cfg.hasTrace = true ∧ i.traceable = true ∧ t.taken = false ∧ t.checkstop = false ∧ se = true

/-- An instruction that is not traced ends as it is; `BE` traces none, because none is a branch. -/
theorem traceAfter_untraced {i : Instr} {se : Bool} {t : State} (h : ¬Traced i se t) (be : Bool) :
    traceAfter i se be t = t := by
  refine if_neg fun hall => h ?_
  simpa [Traced, Instr.isBranch, and_assoc] using hall

/-- A traced instruction ends in the trace exception, or in a floating-point enabled one that it has made pending. -/
theorem traceAfter_traced {i : Instr} {se : Bool} {t : State} (h : Traced i se t) (be : Bool) :
    traceAfter i se be t =
      if i.movesToMsr && (floatPending t.context t || floatPending t.msr t) then
        takeException (.program .fpEnabled true) t.nia t
      else takeException .trace t.nia t := by
  refine if_pos ?_
  simpa [Traced, Instr.isBranch, and_assoc] using h

/-! ## A fetch that fails (61 R305 to R307, R298) -/

/-- The fetch with an ISI cause takes that exception. -/
theorem runInstruction_isi {s : State} {cause : IsiCause}
    (h : isiCause s.cfg (s.translate .fetch s.cia) = some cause) :
    runInstruction s = raise (.isi cause) s := by
  have hfetch : s.fetch = .isi cause := by rw [State.fetch, h]
  rw [runInstruction, hfetch]

/-- The fetch that may proceed but finds no memory at one of its four bytes meets a bus error. -/
theorem runInstruction_noMemory {s : State} {pa : Word} {attrs : Attrs}
    (hx : s.translate .fetch s.cia = .ok pa attrs) (hf : fetchForbidden attrs = false)
    (h : ∃ i, i < 4 ∧ memoryAt s.cfg (s.byteAddress (pa + BitVec.ofNat 64 i)) = false) :
    runInstruction s = busError (fun t => t) s := by
  have hmem : (s.fetchBytes pa).all (memoryAt s.cfg) = false := by
    obtain ⟨i, hi, hno⟩ := h
    rw [← Bool.not_eq_true, List.all_eq_true]
    intro hall
    have := hall _ (List.mem_map.2 ⟨i, List.mem_range.2 hi, rfl⟩)
    rw [hno] at this
    cases this
  have hfetch : s.fetch = .noMemory := by simp [State.fetch, hx, isiCause, hf, xlatePa, hmem]
  rw [runInstruction, hfetch]

/-- Translation of a fetch with no window open. -/
theorem translate_fetch_closed {s : State} (hw : s.window = []) (ea : Word) : s.translate .fetch ea =
    if msrIR s.msr then translateBy s.cfg.xlate .fetch ea s.msr else .ok ea {} := by
  rw [State.translate, State.context_of_closed hw]

/-- The address of a byte with no window open. -/
theorem byteAddress_closed {s : State} (hw : s.window = []) (pa : Word) :
    s.byteAddress pa = if msrLE s.msr then pa ^^^ 7 else pa := by
  rw [State.byteAddress, State.context_of_closed hw]

/-- What an exception of the fetch leaves: entry at the instruction's address, and nothing executed. -/
theorem takenFrom_advance (s : State) (e : Exc) (addr : Word) :
    TakenFrom s (advance (takeException e addr { s with cia := addr, taken := false })) e addr := by
  rw [advance_frame]
  exact takeException_takenFrom e addr _

end Sys2Proof.Machine

open Sys2Proof Sys2Proof.Machine

/-- Settles O60: the count, or none. -/
theorem decrementerCounts : Obligations.DecrementerCounts := by
  intro s hs t counts
  refine ⟨?_, fun h => ?_, fun h => ?_⟩
  · have hframe := advance_frame s
    rwa [advance_draws hs] at hframe
  · have hadvance : t = _ := advance_counts hs h
    rw [hadvance]
    exact ⟨toNat_count s.dec, rfl, rfl⟩
  · have hadvance : t = _ := advance_waits hs h
    rw [hadvance]
    exact ⟨rfl, rfl, rfl⟩

/-- Settles O58: the environment's moves are the whole step, and no other but a hard reset leaves checkstop. -/
theorem checkstopIsStuck : Obligations.CheckstopIsStuck := by
  intro s hs hreset
  have hframe := beginStep_frame hreset
  have hc : (beginStep s).checkstop = true := by rw [hframe]; exact hs
  exact ⟨_, step_of_checkstop hc, hframe⟩

/-- Settles O59: the step is the advance of time. -/
theorem reducedPower : Obligations.ReducedPower := by
  intro s henv hs hb hpow hmsr
  have hbegin := beginStep_idle henv
  have hc : (beginStep s).checkstop = false := by rw [hbegin]; exact hs
  have ha : asleep (beginStep s) = true := by
    have hcontext : (beginStep s).context = s.context := by rw [hbegin]; rfl
    rw [asleep, beginStep_cfg, hcontext, hpow, hmsr]
    rfl
  refine ⟨_, step_of_asleep hc hb ha, ?_, fun htick => ?_⟩
  · rw [hbegin, advance_frame]
  · rw [advance_counts hc (by rw [beginStep_cfg]; omega), hbegin]
    exact ⟨rfl, rfl⟩

/-- Settles O57: what is traced, and for `mtmsr` and `mtmsrd` a floating-point exception first. -/
theorem singleStepTrace : Obligations.SingleStepTrace := by
  intro i se be t float movesMsr ends
  have hfloat : (floatPending t.context t || floatPending t.msr t) = float := by
    simp only [floatPending, float]
    cases t.fex <;> cases msrFE0 t.msr <;> cases msrFE1 t.msr <;> simp
  have hends {e : Exc} {info offset : Word} (h : traceAfter i se be t = takeException e t.nia t)
      (he : e.requested = false) (hinfo : e.srr1Info = info) (hoffset : e.offset = offset) : ends e info offset := by
    have ht := takeException_alone he t.nia t
    rw [← h] at ht
    exact ⟨ht.entry, ht.frame, ht.decPending, ht.sresetReq, ht.mcheckReq, hinfo ▸ ht.info, hoffset ▸ ht.nia⟩
  refine ⟨fun htrace hse hrfi hrfid htaken hcs => ?_, fun hno => traceAfter_untraced ?_ be⟩
  · have htraceable : i.traceable = true := by
      rw [← Bool.not_eq_false, traceable_eq_false, not_or]
      exact ⟨hrfi, hrfid⟩
    have hafter := traceAfter_traced ⟨htrace, htraceable, htaken, hcs, hse⟩ be
    rw [hfloat] at hafter
    refine ⟨fun h => hends (hafter.trans (if_neg ?_)) rfl rfl rfl,
      fun hm hf => hends (hafter.trans (if_pos ?_)) rfl rfl rfl⟩
    · rwa [Bool.and_eq_true, movesToMsr_iff]
    · exact Bool.and_eq_true_iff.2 ⟨movesToMsr_iff.2 hm, hf⟩
  · rintro ⟨htrace, htraceable, htaken, hcs, hse⟩
    obtain h | h | h | h | h | h := hno
    · exact absurd (htrace.symm.trans h) (by decide)
    · exact absurd (hse.symm.trans h) (by decide)
    · exact absurd (htraceable.symm.trans (traceable_eq_false.2 (.inl h))) (by decide)
    · exact absurd (htraceable.symm.trans (traceable_eq_false.2 (.inr h))) (by decide)
    · exact absurd (htaken.symm.trans h) (by decide)
    · exact absurd (hcs.symm.trans h) (by decide)

/-- Settles O56: the fetch translated at the instruction's address, one answer of the translation at a time. -/
theorem fetchFailureTaken : Obligations.FetchFailureTaken := by
  intro s henv hw hs hb ha takes fails
  let c : State := { s with cia := s.maskEa s.nia, taken := false }
  have hcw : c.window = [] := hw
  have hstep : step s = mapNext advance (runInstruction c) := by
    have hbegin := beginStep_idle henv
    have hclosed : (beginStep s).window = [] := by rw [hbegin]; exact hw
    rw [step_of_run (by rw [hbegin]; exact hs) hb ha, hbegin]
    rw [hbegin] at hclosed
    simp only [settle_closed hclosed]
    rfl
  have htakes {e : Exc} {info offset : Word} (h : runInstruction c = .next (takeException e c.cia c))
      (hfault : e.fault? = none) (hinfo : e.srr1Info = info) (hoffset : e.offset = offset) :
      takes e info offset := by
    have hentry := takenFrom_advance s e (s.maskEa s.nia)
    have ⟨_, hsrr1, _, hnia, hdsisr, hdar, _⟩ := hentry
    refine ⟨_, by rw [hstep, h]; rfl, hentry, ?_, ?_, ?_, ?_, ?_, ?_⟩
    · rw [hdsisr, hfault]; rfl
    · rw [hdar, hfault]; rfl
    · rw [hnia, hoffset, State.context_of_closed hw]
    · rw [advance_gpr, takeException_gpr]
    · rw [advance_mem, takeException_mem]
    · rw [hsrr1, saveImage_information, hinfo]
  have hisi {cause : IsiCause} (h : isiCause s.cfg (c.translate .fetch c.cia) = some cause) : fails cause :=
    htakes (runInstruction_isi h) rfl (by cases cause <;> rfl) rfl
  have hx : c.translate .fetch c.cia = if msrIR s.msr then translateBy s.cfg.xlate .fetch (s.maskEa s.nia) s.msr
      else .ok (s.maskEa s.nia) {} := translate_fetch_closed hcw _
  rw [← hx]
  cases hr : c.translate .fetch c.cia with
  | segmentFail => exact hisi (by rw [hr]; rfl)
  | noTranslation => exact hisi (by rw [hr]; rfl)
  | directStoreError pa => exact hisi (by rw [hr]; rfl)
  | protection attrs => exact hisi (by rw [hr]; rfl)
  | ok pa attrs =>
    dsimp only
    split
    next hf => exact hisi (by rw [hr]; exact if_pos hf)
    next hf =>
      intro habsent
      have hrun : runInstruction c = busError (fun t => t) c := by
        refine runInstruction_noMemory hr (Bool.eq_false_of_not_eq_true hf) ?_
        simpa only [byteAddress_closed hcw] using habsent
      have hme : c.context = s.msr := State.context_of_closed hcw
      rw [busError, hme] at hrun
      split
      next hcheck =>
        rw [if_pos (by exact hcheck)] at hrun
        split
        next hon => exact htakes (by rw [hrun, machineCheckAt, if_pos hon]) rfl rfl rfl
        next hoff =>
          rw [hstep, hrun, machineCheckAt, if_neg hoff, mapNext, advance_checkstop rfl]
      next hcheck => rw [hstep, hrun, if_neg (by exact hcheck)]; rfl

end

section
/-! Proofs about the environment (70_reset_and_hazards.md R373, R374): what its moves before a step do, and the
state a hard reset leaves (10_state.md R55). -/

namespace Sys2Proof.Machine

/-! ## The moves in order -/

theorem applyMoves_eq_foldl (l : List EnvMove) (s : State) : applyMoves l s = l.foldl applyMove s := by
  induction l generalizing s with
  | nil => rfl
  | cons m rest ih => exact ih (applyMove s m)

theorem beginStep_moves {s : State} {moves : List EnvMove} {rest : List (List EnvMove)}
    (h : s.env = moves :: rest) :
    beginStep s = moves.foldl applyMove { s with env := rest, taken := false } := by
  unfold beginStep
  rw [h]
  exact applyMoves_eq_foldl _ _

/-! ## What a hard reset leaves as it was -/

/-- A hard reset leaves the configuration, the schedule, the signal and the requests (log entry 7). -/
theorem hardReset_keeps (s : State) : (hardReset s).cfg = s.cfg ∧ (hardReset s).env = s.env ∧
    (hardReset s).extSignal = s.extSignal ∧ (hardReset s).sresetReq = s.sresetReq ∧
    (hardReset s).sresetLost = s.sresetLost ∧ (hardReset s).mcheckReq = s.mcheckReq ∧
    (hardReset s).mcheckLost = s.mcheckLost := by
  simp only [hardReset, and_self]

/-! ## The MSR after a hard reset (10 R55) -/

/-- The low-order half of the MSR after a hard reset: of the free value the bits that entry keeps, but for `IP`,
with `LE` from `ILE` as at entry; and `IP` is `RESET_IP`. The width of the implementation matters to the high
half alone. -/
theorem getMsbD_hardResetMsr (c : Config) (free : Word) {k : Nat} (hlow : 32 ≤ k) (hk : k < 64) :
    (hardResetMsr c free).getMsbD k =
      ((handlerBits (free &&& ~~~0x40)).getMsbD k || (decide (k = 57) && c.resetIp)) := by
  have hmaskSF : ∀ j < 64, 32 ≤ j → maskSF.getMsbD j = false := by decide
  have hmaskLow : ∀ j < 64, 32 ≤ j → (0xFFFFFFFF : Word).getMsbD j = true := by decide
  have hmaskIP : ∀ j < 64, (0x40 : Word).getMsbD j = decide (j = 57) := by decide
  have hwidth (v : Word) : (if c.is64 then v ||| maskSF else low32 v).getMsbD k = v.getMsbD k := by
    split
    · rw [BitVec.getMsbD_or, hmaskSF k hk hlow, Bool.or_false]
    · rw [low32, BitVec.getMsbD_and, hmaskLow k hk hlow, Bool.and_true]
  have hip : (if c.resetIp then 0x40 else 0 : Word).getMsbD k = (decide (k = 57) && c.resetIp) := by
    cases c.resetIp
    · simp
    · simpa using hmaskIP k hk
  have hkept : free &&& ~~~(0x0004EF73 : Word) = free &&& ~~~0x40 &&& ~~~0x0004EF33 := by
    rw [BitVec.and_assoc]
    rfl
  have hile : (free &&& ~~~(0x0004EF73 : Word)) >>> 16 &&& (1 : Word) =
      (free &&& ~~~0x40) >>> 16 &&& 1 := by
    simp only [BitVec.ushiftRight_and_distrib, BitVec.and_assoc]
    rfl
  refine (hwidth _).trans ?_
  rw [BitVec.getMsbD_or, hip, hile, hkept, handlerBits]

theorem handlerMsr_hardResetMsr (c : Config) (free : Word) : HandlerMsr (hardResetMsr c free) := by
  simp only [HandlerMsr, msrPR, msrEE, msrIR, msrDR, msrFP, msrRI, msrPOW, msrSE, msrBE, msrFE0, msrFE1, msrLE,
    msrILE, getMsbD_hardResetMsr c free, Nat.reduceLeDiff, Nat.reduceLT]
  simp [handlerBits, BitVec.getMsbD_and, BitVec.getMsbD_or, BitVec.getMsbD_ushiftRight]

@[simp] theorem msrIP_hardResetMsr (c : Config) (free : Word) : msrIP (hardResetMsr c free) = c.resetIp := by
  rw [msrIP, getMsbD_hardResetMsr c free (by decide) (by decide)]
  simp [handlerBits, BitVec.getMsbD_and, BitVec.getMsbD_or, BitVec.getMsbD_ushiftRight]

theorem msrSF_hardResetMsr {c : Config} (h64 : c.is64 = true) (free : Word) :
    msrSF (hardResetMsr c free) = true := by
  have hmaskSF : maskSF.getMsbD 0 = true := by decide
  rw [hardResetMsr, if_pos h64, msrSF, BitVec.getMsbD_or, hmaskSF, Bool.or_true]

end Sys2Proof.Machine

open Sys2Proof Sys2Proof.Machine

/-- Settles O10: the statement's moves are the model's, one kind at a time, and the model makes them in order; of
the state a hard reset leaves, the MSR bits alone are not read off its definition. -/
theorem environmentMoves : Obligations.EnvironmentMoves := by
  intro s move
  have hmove : move = applyMove := by
    funext u m
    cases m with
    | setExternal | requestSystemReset | requestMachineCheck | setFex | hardReset => rfl
  refine ⟨beginStep_idle, fun moves rest henv => hmove ▸ beginStep_moves henv, rfl, ?_, ?_, ?_, rfl, rfl,
    hardReset_keeps s⟩
  · exact handlerMsr_hardResetMsr _ _
  · exact msrIP_hardResetMsr _ _
  · exact fun h64 => msrSF_hardResetMsr h64 _

end
